-- ==== Sys2Proof/Word.lean ====
section
/-!
DEFINITION. The words of the Keccak sponge lane assembler: message bytes, 64-bit lanes, the words that cross its two
ports, and the events an observer of the sponge port records. Rules R10, R14, R17, R19, R48, R61 and R65 of spec/.
-/

namespace Sys2Proof

/-- A message byte, `u8` (R19). -/
abbrev Byte := BitVec 8

/-- A 64-bit lane of the Keccak state (R9 `LANE_BYTES`, Glossary). -/
abbrev Lane := BitVec 64

/-- The 256-bit digest register's value (R29). -/
abbrev Digest := BitVec 256

/-- A word of the command port, format `CMD`, 10 bits (R61). -/
abbrev CommandWord := BitVec 10

/-- A word of the sponge port, format `SPREQ`, 66 bits (R65). -/
abbrev RequestWord := BitVec 66

/-- The collaborator's 25 lanes, lane index `x + 5*y` (R108). -/
abbrev LaneArray := Vector Lane 25

/-- A word standing on one of the block's two ports (R48): the only two formats there are. -/
inductive PortWord where
  /-- a command word, presented by the driver -/
  | command (w : CommandWord)
  /-- a sponge request word, presented to the collaborator -/
  | request (w : RequestWord)
  deriving DecidableEq, Repr

/-- One event of the sponge trace `T` (R17). -/
inductive Event where
  /-- `INIT(f)` -/
  | init (fresh : Bool)
  /-- `ABSORB_LANE(l)` -/
  | absorbLane (lane : Lane)
  /-- `ADVANCE` -/
  | advance
  /-- `SQUEEZE->z`, with `z` the returned lane -/
  | squeeze (z : Lane)
  deriving DecidableEq, Repr

end Sys2Proof
end

