-- ==== Sys2Proof/Config.lean ====
section
/-!
DEFINITION. The constants of the block, none of them configurable (R9), and the two free values of the model: the lane
a collaborator about which nothing is known answers (U8 of spec/93_implementation_defined.md, R106, R107), and the
1600-bit state that an INIT(0) keeps where it is not known (R109).
-/

namespace Sys2Proof

/-- `RATE_BYTES`, the bytes absorbed per block (R9). -/
@[simp] def Config.rateBytes : Nat := 136

/-- `RATE_LANES`, the lanes per block (R9). -/
@[simp] def Config.rateLanes : Nat := 17

/-- `ADVANCE_CALLS`, the ADVANCE operations per full block (R9). -/
@[simp] def Config.advanceCalls : Nat := 4

/-- `DIGEST_LANES`, the SQUEEZE operations per digest (R9). -/
@[simp] def Config.digestLanes : Nat := 4

/-- `PAD_START`, the start-pad marker byte (R9). -/
@[simp] def Config.padStart : Byte := 0x01

/-- `PAD_END`, the end-pad marker byte (R9). -/
@[simp] def Config.padEnd : Byte := 0x80

/-- `PAD_BOTH`, both markers in one byte (R9). -/
@[simp] def Config.padBoth : Byte := 0x81

/-- The lane that a collaborator answers to an output step when the spec does not give the answer: a FREE VALUE, with
no body. It is applied to the events that collaborator has been sent, so any deterministic collaborator, whatever it
is, answers by some such function (U8: `any value`, an oracle answers each SQUEEZE). Assumption log 2. -/
opaque Config.freeLane : List Event → Lane

/-- The 1600-bit state `S` that the reference collaborator keeps at an INIT(0) while nothing is known of it (R109, R115): a
FREE VALUE, with no body, applied to the events that collaborator has been sent. Assumption log 3. -/
opaque Config.freeState : List Event → LaneArray

end Sys2Proof
end

