-- ==== Sys2Proof/Syntax.lean ====
section
/-!
DEFINITION. The operations of spec/opcode_table.json, one constructor per row: the four words of the command port
(R62) and the four words of the sponge port (R66). A constructor carries every field its row's format has that is not
fixed by the row, the ignored `data` bits too (R63), so that no bit of a word is lost.
-/

namespace Sys2Proof

/-- One row of the opcode table, with its operands. -/
inductive Instr where
  /-- RESERVED, `op = 00`: the illegal command word; `data` is ignored (R123, R64). -/
  | reserved (data : Byte)
  /-- NEW, `op = 01`: start a digest; `data` is ignored (R81). -/
  | new (data : Byte)
  /-- ABSORB, `op = 10`: one message byte (R83). -/
  | absorb (byte : Byte)
  /-- FINALIZE, `op = 11`: pad and produce the digest; `data` is ignored (R84). -/
  | finalize (data : Byte)
  /-- INIT, `sop = 00`: `sponge_init(fresh)` (R101). -/
  | init (fresh : Bool)
  /-- ABSORB_LANE, `sop = 01`: `sponge_absorb_lane(lane)` (R102). -/
  | absorbLane (lane : Lane)
  /-- ADVANCE, `sop = 10`: `sponge_advance()` (R103). -/
  | advance
  /-- SQUEEZE, `sop = 11`: `sponge_squeeze_lane()` (R104). -/
  | squeeze
  deriving DecidableEq, Repr

end Sys2Proof
end

