-- ==== Sys2Proof/WellFormed.lean ====
section
/-!
DEFINITION. Which words of the two ports are words of the opcode table (R62, R66). The fields of `Instr` have the
formats' widths by their types, so every term of `Instr` is well formed; what can be ill formed is a word: a request
word may carry payload bits that no row of the table allows (V4 of spec/93_implementation_defined.md).
-/

namespace Sys2Proof

/-- A word selects a row of the table when `(w & mask) == match` (R62, R66). -/
def PortWord.selects (w : PortWord) (row : PortWord × PortWord) : Bool :=
  match w, row with
  | .command w, (.command mask, .command pattern) => w &&& mask == pattern
  | .request w, (.request mask, .request pattern) => w &&& mask == pattern
  | _, _ => false

/-- The table's `mask` and `match` of an instruction's row (R62, R66). -/
def Instr.row : Instr → PortWord × PortWord
  | .reserved _ => (.command 0x300#10, .command 0x000#10)
  | .new _ => (.command 0x300#10, .command 0x100#10)
  | .absorb _ => (.command 0x300#10, .command 0x200#10)
  | .finalize _ => (.command 0x300#10, .command 0x300#10)
  | .init _ => (.request 0x3FFFFFFFFFFFFFFFE#66, .request 0x00000000000000000#66)
  | .absorbLane _ => (.request 0x30000000000000000#66, .request 0x10000000000000000#66)
  | .advance => (.request 0x3FFFFFFFFFFFFFFFF#66, .request 0x20000000000000000#66)
  | .squeeze => (.request 0x3FFFFFFFFFFFFFFFF#66, .request 0x30000000000000000#66)

/-- The eight rows of the table, in its order. -/
def tableRows : List (PortWord × PortWord) :=
  [Instr.row (.reserved 0), Instr.row (.new 0), Instr.row (.absorb 0), Instr.row (.finalize 0),
   Instr.row (.init false), Instr.row (.absorbLane 0), Instr.row .advance, Instr.row .squeeze]

/-- A port word is well formed when it selects some row of the table. Every command word does (R62); a request word
does unless its `sop` is INIT, ADVANCE or SQUEEZE and its payload has a bit the row does not allow (R66, R67). -/
def PortWord.WellFormed (w : PortWord) : Bool :=
  tableRows.any w.selects

end Sys2Proof
end

