-- ==== Sys2Proof/Decode.lean ====
section
/-!
DEFINITION. The decoder of the two port formats, total on every word (R61, R62, R63, R65, R66, R67), rejecting by name
the request words outside the table, and the encoder written from the same tables.
-/

namespace Sys2Proof

/-- Why a request word is no word of the table: its payload is not one its `sop` allows (R67, V4). The block never
issues such a word (R66). -/
inductive DecodeError where
  /-- `sop = 00` (INIT) with a payload bit above bit 0 set -/
  | initPayload
  /-- `sop = 10` (ADVANCE) with a payload other than 0 -/
  | advancePayload
  /-- `sop = 11` (SQUEEZE) with a payload other than 0 -/
  | squeezePayload
  deriving DecidableEq, Repr

/-- `cmd[9:8]`, the opcode of a command word (R61). -/
def commandOp (w : CommandWord) : BitVec 2 := w.extractLsb' 8 2

/-- `cmd[7:0]`, the data byte of a command word (R61, R63). -/
def commandData (w : CommandWord) : Byte := w.extractLsb' 0 8

/-- `sp_req[65:64]`, the sponge opcode of a request word (R65). -/
def requestOp (w : RequestWord) : BitVec 2 := w.extractLsb' 64 2

/-- `sp_req[63:0]`, the payload of a request word (R65). -/
def requestPayload (w : RequestWord) : BitVec 64 := w.extractLsb' 0 64

/-- Decode a command word by `cmd[9:8]` alone (R62, R69, R80): every word selects exactly one row. -/
def decodeCommand (w : CommandWord) : Instr :=
  if commandOp w = 0b00#2 then .reserved (commandData w)
  else if commandOp w = 0b01#2 then .new (commandData w)
  else if commandOp w = 0b10#2 then .absorb (commandData w)
  else .finalize (commandData w)

/-- Decode a sponge request word (R66, R67). -/
def decodeRequest (w : RequestWord) : Except DecodeError Instr :=
  if requestOp w = 0b00#2 then
    if requestPayload w = 0 then .ok (.init false)
    else if requestPayload w = 1 then .ok (.init true)
    else .error .initPayload
  else if requestOp w = 0b01#2 then .ok (.absorbLane (requestPayload w))
  else if requestOp w = 0b10#2 then
    if requestPayload w = 0 then .ok .advance else .error .advancePayload
  else
    if requestPayload w = 0 then .ok .squeeze else .error .squeezePayload

/-- Decode a word of either port. -/
def decode : PortWord → Except DecodeError Instr
  | .command w => .ok (decodeCommand w)
  | .request w => decodeRequest w

/-- `{op, data}`, a command word (R61). -/
def commandWord (op : BitVec 2) (data : Byte) : CommandWord := op ++ data

/-- `{sop, payload}`, a request word (R65). -/
def requestWord (sop : BitVec 2) (payload : BitVec 64) : RequestWord := sop ++ payload

/-- The word of an instruction, from the tables of R62 and R66 and the payloads of R67. -/
def encode : Instr → PortWord
  | .reserved data => .command (commandWord 0b00#2 data)
  | .new data => .command (commandWord 0b01#2 data)
  | .absorb byte => .command (commandWord 0b10#2 byte)
  | .finalize data => .command (commandWord 0b11#2 data)
  | .init fresh => .request (requestWord 0b00#2 (if fresh then 1 else 0))
  | .absorbLane lane => .request (requestWord 0b01#2 lane)
  | .advance => .request (requestWord 0b10#2 0)
  | .squeeze => .request (requestWord 0b11#2 0)

/-- The instruction read from a table row's bits (the host's name): up to 16 bits a command word, which has 10 bits;
above that a request word, which has 66. A number with a bit above the word's width is no word of the format. -/
def decodeTableWord (nbits w : Nat) : Option Instr :=
  if nbits ≤ 16 then
    if w < 2 ^ 10 then some (decodeCommand (BitVec.ofNat 10 w)) else none
  else if w < 2 ^ 66 then (decodeRequest (BitVec.ofNat 66 w)).toOption
  else none

end Sys2Proof
end

