-- ==== Sys2Proof/Machine/State.lean ====
section
/-!
DEFINITION. The state of the machine: the block's registers (R20 to R32), the sponge trace `T` (R17), the collaborator
the block drives (R33, R108) and the inputs the outside world has still to give (R13); why a step can stop; the state
after reset (R35).
-/

namespace Sys2Proof.Machine

/-- The lifecycle register's values (R27). The code 3 is never written and is no value here (V2). -/
inductive Phase where
  /-- code 0: no digest has been started since reset -/
  | empty
  /-- code 1: a digest is in progress -/
  | active
  /-- code 2: FINALIZE has consumed the instance and `digest` holds its result -/
  | done
  deriving DecidableEq, Repr

/-- The values of `err_cause`, in the order of their codes 0 to 3 (R120). -/
inductive ErrCause where
  /-- code 0: no error since reset -/
  | none
  /-- code 1, `ABSORB_NOT_ACTIVE` (R121) -/
  | absorbNotActive
  /-- code 2, `FINALIZE_NOT_ACTIVE` (R122) -/
  | finalizeNotActive
  /-- code 3, `ILLEGAL_OP` (R123) -/
  | illegalOp
  deriving DecidableEq, Repr

/-- The states of the hidden sequencer register `seq`, in the order of their codes 0 to 14 (R92), and `init1`, the state
of its own that R92's note allows the `INIT(1)` of NEW. DESIGN CHOICE: the block is in `init1` exactly while that request
has not been taken in the cycle that accepted NEW (log 8). -/
inductive Seq where
  | idle | emit | adv0 | adv1 | adv2 | adv3 | reinit | pad1 | padz | last80 | last81 | sq0 | sq1 | sq2 | sq3 | init1
  deriving DecidableEq, Repr

/-- The reference collaborator's state (R108). -/
structure Sponge where
  /-- `S[0..24]`, the 1600-bit Keccak state -/
  S : LaneArray
  /-- `ai`, the lanes absorbed since the last INIT, 0 to 17 -/
  ai : Nat
  /-- `oi`, the output steps since the last INIT, 0 to 4 -/
  oi : Nat
  deriving DecidableEq, Repr

/-- What stands behind the sponge port (R11, R33). The block's rules are the same for all three. -/
inductive Collaborator where
  /-- the reference collaborator of R108 to R114, in a known state -/
  | reference (sponge : Sponge)
  /-- the reference collaborator while nothing is known of `ai`, `oi`, `S`: after reset and before the first INIT
  (R109, R115, R141), or after an operation it does not permit (R110, R111). Its answers are free values. -/
  | unknown
  /-- some other collaborator: it takes every request and its answers are free values (U4, U5, U8) -/
  | external
  deriving DecidableEq, Repr

/-- The input pins during one clock cycle (R72). -/
structure Pins where
  /-- `rst`, the reset request -/
  rst : Bool
  /-- `cmd_valid` -/
  cmdValid : Bool
  /-- `cmd` -/
  cmd : CommandWord
  /-- `sp_ready`: the collaborator performs the request in this cycle -/
  spReady : Bool
  deriving DecidableEq, Repr

/-- What the outside world does next. A driver that works at the grain of whole commands gives `command` and `reset`
(R12); one that works at the grain of clock cycles gives `clock` (R72, R92). -/
inductive Input where
  /-- the driver presents a command word, taken as soon as the block is idle and run as a whole (R12, R80) -/
  | command (w : CommandWord)
  /-- the reset request is taken between two commands, or between two clock cycles (R140, R142) -/
  | reset
  /-- one clock cycle passes with these values on the pins (R72, R92) -/
  | clock (p : Pins)
  /-- a request word reaches the collaborator from something other than this block's commands: a test of the
  collaborator alone (§2.7 of spec/95_test_vectors.md), or another user of its context (R147) -/
  | request (w : RequestWord)
  deriving DecidableEq, Repr

/-- The machine's state. Plain data. -/
structure State where
  /-- `acc`, KSPEC `lane_accumulator` (R20) -/
  acc : Lane
  /-- `fill`, KSPEC `lane_fill` (R21) -/
  fill : BitVec 3
  /-- `lanes`, KSPEC `lanes_in_block` (R22) -/
  lanes : BitVec 5
  /-- `phase`, the lifecycle (R27) -/
  phase : Phase
  /-- `err`, the sticky error flag (R28) -/
  err : Bool
  /-- `err_cause`, the first error's cause (R28) -/
  errCause : ErrCause
  /-- `digest` (R29) -/
  digest : Digest
  /-- `seq`, the hidden sequencer state; IDLE between commands (R32) -/
  seq : Seq
  /-- `fin`, the hidden mark that a FINALIZE is in progress (R32) -/
  fin : Bool
  /-- `T`, the events the sponge port has carried, oldest first (R17) -/
  trace : List Event
  /-- the collaborator's state, not the block's (R33) -/
  collab : Collaborator
  /-- the inputs still to come, next one first (R13) -/
  inputs : List Input
  deriving DecidableEq, Repr

/-- Why the machine stops with a fault: never. The spec gives every misuse an effect (error entry, R124) and names no
condition that stops the block (R125, R128); a collaborator that does not answer leaves it waiting, not faulted (R151).
No constructor, so no meaning can raise one. -/
inductive Fault where
  deriving DecidableEq, Repr

/-- Why the machine refuses to take a step. -/
inductive Refusal where
  /-- Raised by `exec` for an instruction that has no meaning yet: no instruction here. Safe: it stops. -/
  | notModelled (mnemonic : String)
  /-- Raised by `step` for an input `request w` whose word is outside the table of R66, which no command of the block
  issues (R66) and for which the spec gives no effect (V4: a collaborator model may refuse it). Safe: it stops. -/
  | requestOutsideTable (why : DecodeError)
  deriving DecidableEq, Repr

/-- The state after reset (R35): every register as R35 states it, no event yet, nothing known of the collaborator
(R115, R141), no input presented. -/
def State.reset : State where
  acc := 0
  fill := 0
  lanes := 0
  phase := .empty
  err := false
  errCause := .none
  digest := 0
  seq := .idle
  fin := false
  trace := []
  collab := .unknown
  inputs := []

end Sys2Proof.Machine
end

