-- ==== Sys2Proof/Machine/Keccak.lean ====
section
/-!
DEFINITION. Keccak-f[1600], the permutation of the reference collaborator (R112), with its rotation offsets (R113) and
round constants (R114).
-/

namespace Sys2Proof.Machine

/-- `A[x][y] = S[x + 5*y]` (R108, R112). -/
def laneAt (s : LaneArray) (x y : Fin 5) : Lane := s.get ⟨x.val + 5 * y.val, by omega⟩

/-- The 25 lanes `S[x + 5*y] = f x y` (R112). -/
def buildLanes (f : Fin 5 → Fin 5 → Lane) : LaneArray :=
  #v[f 0 0, f 1 0, f 2 0, f 3 0, f 4 0,
     f 0 1, f 1 1, f 2 1, f 3 1, f 4 1,
     f 0 2, f 1 2, f 2 2, f 3 2, f 4 2,
     f 0 3, f 1 3, f 2 3, f 3 3, f 4 3,
     f 0 4, f 1 4, f 2 4, f 3 4, f 4 4]

/-- `rol(v, n)`, rotation of a lane left by `n` (R112). -/
def rol (v : Lane) (n : Nat) : Lane := v.rotateLeft n

/-- `C[x]` of theta: the parity of a column (R112). -/
def columnParity (a : LaneArray) (x : Fin 5) : Lane :=
  laneAt a x 0 ^^^ laneAt a x 1 ^^^ laneAt a x 2 ^^^ laneAt a x 3 ^^^ laneAt a x 4

/-- theta (R112). -/
def theta (a : LaneArray) : LaneArray :=
  let c : Vector Lane 5 :=
    #v[columnParity a 0, columnParity a 1, columnParity a 2, columnParity a 3, columnParity a 4]
  let d : Vector Lane 5 :=
    #v[c.get 4 ^^^ rol (c.get 1) 1, c.get 0 ^^^ rol (c.get 2) 1, c.get 1 ^^^ rol (c.get 3) 1,
       c.get 2 ^^^ rol (c.get 4) 1, c.get 3 ^^^ rol (c.get 0) 1]
  buildLanes fun x y => laneAt a x y ^^^ d.get x

/-- The table of R113: row `x`, column `y`. -/
def rotationTable : Vector (Vector Nat 5) 5 :=
  #v[#v[0, 36, 3, 41, 18],
     #v[1, 44, 10, 45, 2],
     #v[62, 6, 43, 15, 61],
     #v[28, 55, 25, 21, 56],
     #v[27, 20, 39, 8, 14]]

/-- `r[x][y]` (R113). -/
def rotationOffset (x y : Fin 5) : Nat := (rotationTable.get x).get y

/-- rho and pi (R112): `B[y][(2*x + 3*y) mod 5] = rol(A[x][y], r[x][y])`. Written by the target position `(u, v)`: its
source is `y = u` and `x = u + 3*v`, since then `2*x + 3*y = v` modulo 5. -/
def rhoPi (a : LaneArray) : LaneArray :=
  buildLanes fun u v => rol (laneAt a (u + 3 * v) u) (rotationOffset (u + 3 * v) u)

/-- chi (R112). -/
def chi (b : LaneArray) : LaneArray :=
  buildLanes fun x y => laneAt b x y ^^^ (~~~ laneAt b (x + 1) y &&& laneAt b (x + 2) y)

/-- iota (R112). -/
def iota (rc : Lane) (a : LaneArray) : LaneArray := a.set 0 (laneAt a 0 0 ^^^ rc)

/-- A lane with ones at these bit positions and zeros elsewhere. -/
def laneWithBits (positions : List Nat) : Lane := positions.foldl (fun l n => l ||| (1#64 <<< n)) 0

/-- The one bits of each of `RC[0..23]`, in round order. R114 gives the constants as numbers and says that their ones
stand at positions `2^j - 1`, `j` = 0 to 6, only; the statement KeccakTables says that these are its numbers. -/
def roundConstantBits : List (List Nat) :=
  [[0], [1, 7, 15], [1, 3, 7, 15, 63], [15, 31, 63]] ++
  [[0, 1, 3, 7, 15], [0, 31], [0, 7, 15, 31, 63], [0, 3, 15, 63]] ++
  [[1, 3, 7], [3, 7], [0, 3, 15, 31], [1, 3, 31]] ++
  [[0, 1, 3, 7, 15, 31], [0, 1, 3, 7, 63], [0, 3, 7, 15, 63], [0, 1, 15, 63]] ++
  [[1, 15, 63], [7, 63], [1, 3, 15], [1, 3, 31, 63]] ++
  [[0, 7, 15, 31, 63], [7, 15, 63], [0, 31], [3, 15, 31, 63]]

/-- The round constants `RC[0..23]`, in round order (R114). -/
def roundConstants : List Lane := roundConstantBits.map laneWithBits

/-- One round (R112): theta, rho and pi, chi, iota. -/
def keccakRound (a : LaneArray) (rc : Lane) : LaneArray := iota rc (chi (rhoPi (theta a)))

/-- `KeccakF`, the 24 rounds in order (R112). -/
def keccakF (a : LaneArray) : LaneArray := roundConstants.foldl keccakRound a

/-- The all-zero 1600-bit state. -/
def zeroLanes : LaneArray := Vector.replicate 25 0

end Sys2Proof.Machine
end

