-- ==== Sys2Proof/Machine/Collaborator.lean ====
section
/-!
DEFINITION. What stands behind the sponge port: the reference collaborator's operations (R109 to R111), and how a
collaborator of each kind takes a request and answers it (R101 to R104, R106, R107).
-/

namespace Sys2Proof.Machine

/-- Reference `INIT(f)` (R109): always permitted. -/
def spongeInit (fresh : Bool) (c : Sponge) : Sponge :=
  { S := if fresh then zeroLanes else c.S, ai := 0, oi := 0 }

/-- When the reference collaborator permits `ABSORB_LANE` (R110). -/
abbrev spongeMayAbsorb (c : Sponge) : Prop := c.ai < 17 ∧ c.oi = 0

/-- Reference `ABSORB_LANE(l)`, where permitted (R110): `S[ai] <- S[ai] xor l`. -/
def spongeAbsorb (lane : Lane) (c : Sponge) (h : spongeMayAbsorb c) : Sponge :=
  { c with S := c.S.set c.ai (c.S[c.ai] ^^^ lane), ai := c.ai + 1 }

/-- When the reference collaborator permits an output step (R111). -/
abbrev spongeMayOutput (c : Sponge) : Prop := c.ai = 17 ∧ c.oi < 4

/-- The 1600-bit state an output step reads: permuted first when it is the first one (R111). -/
def spongePermuted (c : Sponge) : LaneArray := if c.oi = 0 then keccakF c.S else c.S

/-- Reference output step, shared by ADVANCE and SQUEEZE, where permitted (R111): the returned lane and the state. -/
def spongeOutput (c : Sponge) (h : spongeMayOutput c) : Lane × Sponge :=
  ((spongePermuted c)[c.oi], { c with S := spongePermuted c, oi := c.oi + 1 })

/-- A collaborator takes `INIT(f)` (R101) after the events `trace`. It is always permitted to the reference one and puts
its `ai` and `oi` to 0 (R109), also where nothing was known of it; then a fresh state is all zero (R144), and the state
that a re-init keeps is a free value. -/
def collabInit (trace : List Event) (fresh : Bool) : Collaborator → Collaborator
  | .reference c => .reference (spongeInit fresh c)
  | .unknown => .reference (spongeInit fresh { S := Config.freeState trace, ai := 0, oi := 0 })
  | .external => .external

/-- A collaborator takes `ABSORB_LANE(l)` (R102). Outside the permitted condition the reference collaborator has no
defined behaviour (R110): nothing is known of it afterwards. -/
def collabAbsorb (lane : Lane) : Collaborator → Collaborator
  | .reference c => if h : spongeMayAbsorb c then .reference (spongeAbsorb lane c h) else .unknown
  | .unknown => .unknown
  | .external => .external

/-- A collaborator takes an output step, ADVANCE or SQUEEZE (R103, R104), after the events `trace`: the lane it returns
and its state. Where the spec gives no answer the lane is the free value. -/
def collabOutput (trace : List Event) : Collaborator → Lane × Collaborator
  | .reference c =>
    if h : spongeMayOutput c then ((spongeOutput c h).1, .reference (spongeOutput c h).2)
    else (Config.freeLane trace, .unknown)
  | .unknown => (Config.freeLane trace, .unknown)
  | .external => (Config.freeLane trace, .external)

/-- After the block's reset nothing is known of the reference collaborator until INIT(1) (R115, R141). -/
def collabForget : Collaborator → Collaborator
  | .reference _ => .unknown
  | .unknown => .unknown
  | .external => .external

end Sys2Proof.Machine
end

