-- ==== Sys2Proof/Machine/Flags.lean ====
section
/-!
DEFINITION. The error flag and its cause (R124), the codes on the status outputs (R27, R92, R120), and the status
outputs derived from the registers (R30, R72).
-/

namespace Sys2Proof.Machine

/-- `err_cause` after an error of cause `c`: the first cause only (R124). -/
def firstCause (err : Bool) (old c : ErrCause) : ErrCause := if err then old else c

/-- The code of `phase` on the status output (R27). -/
def phaseCode : Phase → BitVec 2
  | .empty => 0
  | .active => 1
  | .done => 2

/-- The code of `err_cause` on the status output (R120). -/
def causeCode : ErrCause → BitVec 2
  | .none => 0
  | .absorbNotActive => 1
  | .finalizeNotActive => 2
  | .illegalOp => 3

/-- The code of `seq` (R92). R92 gives `init1` no code; DESIGN CHOICE: 15, the one code its table leaves (log 8). -/
def seqCode : Seq → BitVec 4
  | .idle => 0
  | .emit => 1
  | .adv0 => 2
  | .adv1 => 3
  | .adv2 => 4
  | .adv3 => 5
  | .reinit => 6
  | .pad1 => 7
  | .padz => 8
  | .last80 => 9
  | .last81 => 10
  | .sq0 => 11
  | .sq1 => 12
  | .sq2 => 13
  | .sq3 => 14
  | .init1 => 15

/-- `digest_valid = (phase == DONE)` (R30). -/
def digestValid (s : State) : Bool := s.phase == .done

/-- `busy = (seq != IDLE)` (R30). -/
def busy (s : State) : Bool := s.seq != .idle

/-- `cmd_ready`: `not busy`, and 0 while reset is requested (R72, R140). -/
def cmdReady (p : Pins) (s : State) : Bool := !busy s && !p.rst

end Sys2Proof.Machine
end

