-- ==== Sys2Proof/Machine/Operands.lean ====
section
/-!
DEFINITION. How operands are put together: a byte in its lane (R41, R63, R82, R94), the end marker in the top byte
(R84, R88), the count of pad bytes (R84, R85), eight bytes as a lane (R19), four lanes as the digest (R29, R43, R84).
-/

namespace Sys2Proof.Machine

/-- `acc | (zext_64(b) << (8*fill))`, the byte placed at byte position `fill` (R82). -/
def placeByte (acc : Lane) (fill : BitVec 3) (b : Byte) : Lane :=
  acc ||| (b.setWidth 64 <<< (8 * fill.toNat))

/-- `marker << 56`: a marker byte in the most significant byte of a lane (R84). -/
def markerTop (marker : Byte) : Lane := marker.setWidth 64 <<< 56

/-- `p = 136 - fill - 8*lanes`, `bytes_to_pad`, an integer (R84). -/
def bytesToPad (fill : BitVec 3) (lanes : BitVec 5) : Int :=
  (Config.rateBytes : Int) - fill.toNat - 8 * lanes.toNat

/-- `LE64(b0..b7)` of a list of bytes, the first the least significant (R19); bytes beyond the list count as 0. -/
def le64 : List Byte → Lane
  | [] => 0
  | b :: bs => b.setWidth 64 ||| (le64 bs <<< 8)

/-- Byte `i` of a lane, least significant first (R19). -/
def laneByte (l : Lane) (i : Nat) : Byte := l.extractLsb' (8 * i) 8

/-- `{z3, z2, z1, z0}`: `digest[64j+63:64j] = zj` (R29, R84). -/
def assembleDigest (z0 z1 z2 z3 : Lane) : Digest := z3 ++ z2 ++ z1 ++ z0

/-- `digest[64j+63:64j] <- z`, the other quarters kept (R68, R92). -/
def setQuarter (j : Fin 4) (z : Lane) (d : Digest) : Digest :=
  match j with
  | 0 => d.extractLsb' 64 192 ++ z
  | 1 => d.extractLsb' 128 128 ++ z ++ d.extractLsb' 0 64
  | 2 => d.extractLsb' 192 64 ++ z ++ d.extractLsb' 0 128
  | 3 => z ++ d.extractLsb' 0 192

/-- `digest[64j+63:64j]`. -/
def quarter (j : Nat) (d : Digest) : Lane := d.extractLsb' (64 * j) 64

/-- `D[k] = digest[8k+7:8k]`, digest byte `k` (R29, R73). -/
def digestByte (d : Digest) (k : Nat) : Byte := d.extractLsb' (8 * k) 8

/-- `D[0..31]`, the digest's bytes in index order (R43). -/
def digestBytes (d : Digest) : List Byte := (List.range 32).map (digestByte d)

end Sys2Proof.Machine
end

