-- ==== Sys2Proof/Machine/Ops.lean ====
section
/-!
DEFINITION. The operations the commands share: the four sponge-port primitives (R16), error entry (R124), reset (R140),
the normal byte path `InjectByte` (R82), and the pieces of NEW (R81) and FINALIZE (R84). The block has no memory (R40).
-/

namespace Sys2Proof.Machine

/-! ### The sponge port (R16, R17) -/

/-- One event passes the sponge port and the collaborator is left in state `c`: the event joins the trace, and no
register of the block changes (R16). -/
def issue (e : Event) (c : Collaborator) (s : State) : State :=
  { s with trace := s.trace ++ [e], collab := c }

/-- `SpInit(f)` (R16, R101). -/
def spInit (fresh : Bool) (s : State) : State := issue (.init fresh) (collabInit s.trace fresh s.collab) s

/-- `SpAbsorbLane(l)` (R16, R102). -/
def spAbsorbLane (lane : Lane) (s : State) : State := issue (.absorbLane lane) (collabAbsorb lane s.collab) s

/-- `SpAdvance()`: whatever it returns is discarded (R16, R68, R103). -/
def spAdvance (s : State) : State := issue .advance (collabOutput s.trace s.collab).2 s

/-- The lane that `SpSqueeze()` returns in state `s` (R16, R104). -/
def squeezed (s : State) : Lane := (collabOutput s.trace s.collab).1

/-- `SpSqueeze()`'s effect at the port (R16, R104). -/
def spSqueeze (s : State) : State := issue (.squeeze (squeezed s)) (collabOutput s.trace s.collab).2 s

/-! ### Errors and reset -/

/-- Error entry, `raise Misuse(c)` (R124): the first cause is kept, `err` is set, and nothing else changes. This is the
block's whole trap mechanism: nothing is saved, there is no handler and no return from it (R124, R125). -/
def errorEntry (c : ErrCause) (s : State) : State :=
  { s with errCause := firstCause s.err s.errCause c, err := true }

/-- The reset request is taken (R140): every register takes its reset value, no sponge operation is issued (R141), the
events already carried stay carried (R142), and nothing is known of the collaborator any more (R115). -/
def takeReset (s : State) : State :=
  { State.reset with trace := s.trace, collab := collabForget s.collab, inputs := s.inputs }

/-! ### The data registers -/

/-- `acc <- 0; fill <- 0; lanes <- 0` (R81, R84). -/
def clearData (s : State) : State := { s with acc := 0, fill := 0, lanes := 0 }

/-- NEW's register writes (R81): the data registers zeroed, `phase <- ACTIVE`. -/
def openDigest (s : State) : State := { clearData s with phase := .active }

/-- The body of NEW (R81): its register writes and `SpInit(1)`. -/
def startDigest (s : State) : State := spInit true (openDigest s)

/-- A block flush's sponge operations: `ADVANCE^4 · INIT(0)` (R82). -/
def blockTransition (s : State) : State :=
  spInit false (spAdvance (spAdvance (spAdvance (spAdvance s))))

/-- The lane flush of the normal byte path (R82): the lane goes out, and the 17th lane of a block is followed by the
block flush. -/
def flushLane (s : State) : State :=
  let s1 := { spAbsorbLane s.acc s with acc := 0, fill := 0 }
  if s.lanes = 16 then { blockTransition s1 with lanes := 0 } else { s1 with lanes := s.lanes + 1 }

/-- `InjectByte(b)`, the normal byte path (R82). -/
def injectByte (b : Byte) (s : State) : State :=
  let s1 := { s with acc := placeByte s.acc s.fill b }
  if s.fill = 7 then flushLane s1 else { s1 with fill := s.fill + 1 }

/-- `repeat n times: InjectByte(0x00)` (R84). -/
def injectZeros : Nat → State → State
  | 0, s => s
  | n + 1, s => injectZeros n (injectByte 0x00 s)

/-- FINALIZE's padding and direct emit (R84): the one-byte special case, or `0x01`, zeros, and the lane with `0x80`. -/
def padBlock (s : State) : State :=
  let p := bytesToPad s.fill s.lanes
  if p = 1 then spAbsorbLane (s.acc + markerTop Config.padBoth) s
  else
    let s1 := injectZeros (p - 2).toNat (injectByte Config.padStart s)
    spAbsorbLane (s1.acc + markerTop Config.padEnd) s1

/-- FINALIZE's end (R84): `SQUEEZE^4`, the digest assembled, the data registers cleared, `phase <- DONE`. -/
def squeezeDigest (s : State) : State :=
  let s1 := spSqueeze s
  let s2 := spSqueeze s1
  let s3 := spSqueeze s2
  { clearData (spSqueeze s3) with
    digest := assembleDigest (squeezed s) (squeezed s1) (squeezed s2) (squeezed s3), phase := .done }

/-- The block's SQUEEZE number `j` of a FINALIZE, on its own: the request passes the port and the returned lane is
written to `digest[64j+63:64j]` (R68, R92, R104). -/
def squeezeInto (j : Fin 4) (s : State) : State :=
  { spSqueeze s with digest := setQuarter j (squeezed s) s.digest }

end Sys2Proof.Machine
end

