-- ==== Sys2Proof/Machine/Commands.lean ====
section
/-!
DEFINITION. The meanings of the four command words at the grain of whole commands: RESERVED (R123), NEW (R81), ABSORB
(R83), FINALIZE (R84).
-/

namespace Sys2Proof.Machine

/-- RESERVED (R64, R123): error entry with cause `ILLEGAL_OP` in every phase, and nothing else. -/
def execReserved (_data : Byte) (s : State) : Host.Outcome State Fault Refusal :=
  .next (errorEntry .illegalOp s)

/-- NEW (R81): legal in every phase; `data` is ignored (R63). -/
def execNew (_data : Byte) (s : State) : Host.Outcome State Fault Refusal :=
  .next (startDigest s)

/-- ABSORB (R83): the normal byte path while ACTIVE, else error entry before any effect (R121). -/
def execAbsorb (byte : Byte) (s : State) : Host.Outcome State Fault Refusal :=
  if s.phase = .active then .next (injectByte byte s) else .next (errorEntry .absorbNotActive s)

/-- FINALIZE (R84): pad, emit the last lane, squeeze the digest while ACTIVE, else error entry before any effect
(R122); `data` is ignored (R63). -/
def execFinalize (_data : Byte) (s : State) : Host.Outcome State Fault Refusal :=
  if s.phase = .active then .next (squeezeDigest (padBlock s)) else .next (errorEntry .finalizeNotActive s)

end Sys2Proof.Machine
end

