-- ==== Sys2Proof/Machine/Requests.lean ====
section
/-!
DEFINITION. The meanings of the four sponge-port operations, one request passing the port each: INIT (R101),
ABSORB_LANE (R102), ADVANCE (R103), SQUEEZE (R104).
-/

namespace Sys2Proof.Machine

/-- INIT (R101): the collaborator starts a fresh state or a new block; no value returns. -/
def execInit (fresh : Bool) (s : State) : Host.Outcome State Fault Refusal :=
  .next (spInit fresh s)

/-- ABSORB_LANE (R102): the collaborator takes the lane; no value returns. -/
def execAbsorbLane (lane : Lane) (s : State) : Host.Outcome State Fault Refusal :=
  .next (spAbsorbLane lane s)

/-- ADVANCE (R103): one output step whose lane is discarded (R68). -/
def execAdvance (s : State) : Host.Outcome State Fault Refusal :=
  .next (spAdvance s)

/-- SQUEEZE (R104): one output step whose lane is yielded to the issuer: it is the value of the event. The request itself
changes no register (R16); the FINALIZE that issued it writes the lane to `digest`, all four at its end (`squeezeDigest`,
R84) or one in each state SQj of the sequencer (`squeezeInto`, R68, R92). -/
def execSqueeze (s : State) : Host.Outcome State Fault Refusal :=
  .next (spSqueeze s)

end Sys2Proof.Machine
end

