-- ==== Sys2Proof/Machine/Dispatch.lean ====
section
/-!
DEFINITION. The meaning of every row of the opcode table (R80 for the command words, R100 for the sponge operations).
-/

namespace Sys2Proof.Machine

def exec (i : Instr) (s : State) : Host.Outcome State Fault Refusal :=
  match i with
  | .reserved data => Sys2Proof.Machine.execReserved data s
  | .new data => Sys2Proof.Machine.execNew data s
  | .absorb byte => Sys2Proof.Machine.execAbsorb byte s
  | .finalize data => Sys2Proof.Machine.execFinalize data s
  | .init fresh => Sys2Proof.Machine.execInit fresh s
  | .absorbLane lane => Sys2Proof.Machine.execAbsorbLane lane s
  | .advance => Sys2Proof.Machine.execAdvance s
  | .squeeze => Sys2Proof.Machine.execSqueeze s

end Sys2Proof.Machine
end

