-- ==== Sys2Proof/Machine/Sequencer.lean ====
section
/-!
DEFINITION. The block at the grain of clock cycles: the micro-sequencer of R92 with its hidden registers `seq` and `fin`
(R32), the sponge port's handshake (R72), reset during a command (R142) and a collaborator that stalls (R151). A NEW whose
INIT(1) is not taken at once waits in the state of its own that R92's note allows.
-/

namespace Sys2Proof.Machine

/-- The request the block presents on the sponge port in this cycle, if any: `sp_valid` and `sp_req` (R72, R92). None
while reset is requested (R140). -/
def pendingRequest (p : Pins) (s : State) : Option Instr :=
  if p.rst then none else
  match s.seq with
  | .idle => if p.cmdValid && commandOp p.cmd == 0b01#2 then some (.init true) else none
  | .emit => some (.absorbLane s.acc)
  | .adv0 | .adv1 | .adv2 | .adv3 => some .advance
  | .reinit => some (.init false)
  | .pad1 | .padz => none
  | .last80 => some (.absorbLane (s.acc + markerTop Config.padEnd))
  | .last81 => some (.absorbLane (s.acc + markerTop Config.padBoth))
  | .sq0 | .sq1 | .sq2 | .sq3 => some .squeeze
  | .init1 => some (.init true)

/-- `sp_valid` (R72). -/
def spValid (p : Pins) (s : State) : Bool := (pendingRequest p s).isSome

/-- `sp_req`, the request word on the sponge port (R65, R72); `none` while `sp_valid = 0`. -/
def spReq (p : Pins) (s : State) : Option PortWord := (pendingRequest p s).map encode

/-- The state the sequencer goes to when a placement or a flush is over: back to the padding while a FINALIZE is in
progress, else IDLE (R92). -/
def seqAfterByte (fin : Bool) : Seq := if fin then .padz else .idle

/-- `Place(b)` of R92. -/
def place (b : Byte) (s : State) : State :=
  let s1 := { s with acc := placeByte s.acc s.fill b }
  if s.fill = 7 then { s1 with seq := .emit } else { s1 with fill := s.fill + 1, seq := seqAfterByte s.fin }

/-- IDLE on accepting a command word (R92). -/
def acceptCommand (w : CommandWord) (s : State) : State :=
  if commandOp w = 0b00#2 then errorEntry .illegalOp s
  else if commandOp w = 0b01#2 then startDigest s
  else if commandOp w = 0b10#2 then
    if s.phase = .active then place (commandData w) s else errorEntry .absorbNotActive s
  else
    if s.phase = .active then
      { s with fin := true, seq := if s.fill = 7 ∧ s.lanes = 16 then .last81 else .pad1 }
    else errorEntry .finalizeNotActive s

/-- One micro-step of the sequencer, in a cycle in which its request (if any) transfers (R92). -/
def microStep (p : Pins) (s : State) : State :=
  match s.seq with
  | .idle => if p.cmdValid then acceptCommand p.cmd s else s
  | .emit =>
    let s1 := { spAbsorbLane s.acc s with acc := 0, fill := 0 }
    if s.lanes = 16 then { s1 with seq := .adv0 }
    else { s1 with lanes := s.lanes + 1, seq := seqAfterByte s.fin }
  | .adv0 => { spAdvance s with seq := .adv1 }
  | .adv1 => { spAdvance s with seq := .adv2 }
  | .adv2 => { spAdvance s with seq := .adv3 }
  | .adv3 => { spAdvance s with seq := .reinit }
  | .reinit => { spInit false s with lanes := 0, seq := seqAfterByte s.fin }
  | .pad1 => place Config.padStart s
  | .padz => if s.fill = 7 ∧ s.lanes = 16 then { s with seq := .last80 } else place 0x00 s
  | .last80 => { spAbsorbLane (s.acc + markerTop Config.padEnd) s with seq := .sq0 }
  | .last81 => { spAbsorbLane (s.acc + markerTop Config.padBoth) s with seq := .sq0 }
  | .sq0 => { squeezeInto 0 s with seq := .sq1 }
  | .sq1 => { squeezeInto 1 s with seq := .sq2 }
  | .sq2 => { squeezeInto 2 s with seq := .sq3 }
  | .sq3 => { clearData (squeezeInto 3 s) with fin := false, phase := .done, seq := .idle }
  | .init1 => { spInit true s with seq := .idle }

/-- The block waits in this cycle: it presents a request and the collaborator does not take it (R92, R151). -/
def stalled (p : Pins) (s : State) : Bool := spValid p s && !p.spReady

/-- A cycle in which the block's request is not taken: a busy state stays as it is, holding the request (R92, R151). In
IDLE the request is the INIT(1) of a NEW: `cmd_ready = 1`, so the command has transferred (R72), and it writes its
registers and waits in a state of its own (R92's note, log 8). -/
def holdRequest (s : State) : State :=
  if s.seq = .idle then { openDigest s with seq := .init1 } else s

/-- One clock cycle (R72, R92): a reset request is taken first (R126, R140); else the state's request is taken with the
micro-step, or it is held. -/
def clockCycle (p : Pins) (s : State) : State :=
  if p.rst then takeReset s else if stalled p s then holdRequest s else microStep p s

/-- The pins of a cycle in which no command is presented and the collaborator takes what the block asks. -/
def quietPins : Pins := { rst := false, cmdValid := false, cmd := 0, spReady := true }

/-- The pins of a cycle in which the driver presents `w` and the collaborator takes what the block asks. -/
def offerPins (w : CommandWord) : Pins := { rst := false, cmdValid := true, cmd := w, spReady := true }

end Sys2Proof.Machine
end

