-- ==== Sys2Proof/Machine/Fetch.lean ====
section
/-!
DEFINITION. What the next step is: the block fetches no instruction (R31, R54); it takes what the outside world
presents next (R12, R13, R80).
-/

namespace Sys2Proof.Machine

/-- What the next input asks of the machine. -/
inductive Fetched where
  /-- run this instruction, in this state (its input already taken) -/
  | run (i : Instr) (s : State)
  /-- no instruction: the state after a reset, a clock cycle or an idle step -/
  | settled (s : State)
  /-- a request word outside the table -/
  | undecodable (why : DecodeError)
  deriving DecidableEq, Repr

/-- The next input (R13). A command is taken when the block is idle and run as a whole (R12, R80); while a command is in
progress it waits at the port (R72, R146) and one cycle of the sequencer passes. With nothing presented the block holds
its state (R131). -/
def fetch (s : State) : Fetched :=
  match s.inputs with
  | [] => .settled s
  | .command w :: rest =>
    if s.seq = .idle then .run (decodeCommand w) { s with inputs := rest }
    else .settled (clockCycle quietPins s)
  | .reset :: rest => .settled (takeReset { s with inputs := rest })
  | .clock p :: rest => .settled (clockCycle p { s with inputs := rest })
  | .request w :: rest =>
    match decodeRequest w with
    | .ok i => .run i { s with inputs := rest }
    | .error why => .undecodable why

/-- The input that presents a table row's word of `nbits` bits: up to 16 bits a command word, above that a request
word (R61, R65). -/
def inputOfWord (nbits w : Nat) : Input :=
  if nbits ≤ 16 then .command (BitVec.ofNat 10 w) else .request (BitVec.ofNat 66 w)

/-- `s` with that word presented next, to a block that has no command in progress. -/
def presentWord (s : State) (nbits w : Nat) : State :=
  { s with seq := .idle, inputs := inputOfWord nbits w :: s.inputs }

end Sys2Proof.Machine
end

