-- ==== Sys2Proof/Machine/Step.lean ====
section
/-!
DEFINITION. One step of the machine: what the next input asks (Machine/Fetch.lean), with a command or a request run by
`exec`.
-/

namespace Sys2Proof.Machine

/-- One step (R12, R80). -/
def step (s : State) : Host.Outcome State Fault Refusal :=
  match fetch s with
  | .run i s' => exec i s'
  | .settled s' => .next s'
  | .undecodable why => .refused (.requestOutsideTable why)

/-- `s` with a table row's word presented so that the very next step runs it (the host's name). -/
def State.withFetchWord (s : State) (nbits w : Nat) : State := presentWord s nbits w

end Sys2Proof.Machine
end

