-- ==== Sys2Proof/Machine/Driver.lean ====
section
/-!
DEFINITION. The driver's pseudo-instruction `keccak256` (R71, R89): the commands it expands to, as assembled (R70).
-/

namespace Sys2Proof.Machine

/-- `new`, `absorb <bi>` for every byte in order, `finalize`: `L + 2` commands (R71, R89). -/
def keccak256Commands (message : List Byte) : List Instr :=
  .new 0 :: message.map .absorb ++ [.finalize 0]

/-- The command word an instruction assembles to (R70); the sponge operations have none. -/
def assemble (i : Instr) : Option CommandWord :=
  match encode i with
  | .command w => some w
  | .request _ => none

/-- The inputs by which a driver presents `keccak256` of a message. -/
def keccak256Inputs (message : List Byte) : List Input :=
  ((keccak256Commands message).filterMap assemble).map .command

/-- The commands of a list run one after the other, each as a whole (R12, R89). -/
def runCommands : List Instr → State → Host.Outcome State Fault Refusal
  | [], s => .next s
  | i :: is, s =>
    match exec i s with
    | .next t => runCommands is t
    | .fault r => .fault r
    | .refused r => .refused r

end Sys2Proof.Machine
end

