-- ==== Sys2Proof/Safety.lean ====
section
/-!
DEFINITION. The terms claims about the machine use: the padded message and the Keccak-256 digest written from the rules
that give them in closed form (R86, R106), the events of a whole digest (R90), the block's invariants (R23, R24, R26),
the link between the block and the reference collaborator (R115), the call discipline at the sponge port (R105), and
what a run free of misuse is (R125, R148).
-/

namespace Sys2Proof.Safety

open Sys2Proof.Machine

/-! ### Runs -/

/-- No misuse since reset: a driver that treats misuse as fatal, as KSPEC asks, treats `err = 1` as fatal (R125). -/
def errorFree (s : State) : Prop := s.err = false

/-- The only states in which a driver may read `digest` (R148). -/
def digestReadable (s : State) : Prop := digestValid s = true

/-- The inputs still to come hold no request from outside the block's commands (R147). -/
def portIsOurs (s : State) : Prop := ∀ w, Input.request w ∉ s.inputs

/-- The next input has the block take the reset request (R140). -/
def resetRequested (s : State) : Prop :=
  match s.inputs with
  | .reset :: _ => True
  | .clock p :: _ => p.rst = true
  | .command _ :: _ | .request _ :: _ | [] => False

/-- The state SQj of the sequencer (R92). -/
def squeezeState (j : Fin 4) : Seq :=
  match j with
  | 0 => .sq0
  | 1 => .sq1
  | 2 => .sq2
  | 3 => .sq3

/-- The error a command word raises in a phase, if any (R93, R120). -/
def misuse (i : Instr) (p : Phase) : Option ErrCause :=
  match i, p with
  | .reserved _, _ => some .illegalOp
  | .absorb _, .empty | .absorb _, .done => some .absorbNotActive
  | .finalize _, .empty | .finalize _, .done => some .finalizeNotActive
  | .absorb _, .active | .finalize _, .active => none
  | .new _, _ | .init _, _ | .absorbLane _, _ | .advance, _ | .squeeze, _ => none

/-- The phase after a command (R93); a sponge operation leaves it. -/
def nextPhase (i : Instr) (p : Phase) : Phase :=
  match i, p with
  | .new _, _ => .active
  | .finalize _, .active => .done
  | .finalize _, .empty => .empty
  | .finalize _, .done => .done
  | .reserved _, p | .absorb _, p | .init _, p | .absorbLane _, p | .advance, p | .squeeze, p => p

/-- Clock cycles with these pins, one after the other (R92). -/
def runCycles (ps : List Pins) (s : State) : State := ps.foldl (fun t p => clockCycle p t) s

/-! ### Padding, blocks and the digest in closed form -/

/-- The pad bytes after a message of `L` bytes (R86): one `0x81`, or `0x01`, zeros and `0x80`. -/
def padding (L : Nat) : List Byte :=
  if L % 136 = 135 then [0x81] else 0x01 :: List.replicate (134 - L % 136) 0x00 ++ [0x80]

/-- The message followed by its padding: a positive multiple of 136 bytes (R86). -/
def paddedMessage (m : List Byte) : List Byte := m ++ padding m.length

/-- Lane `k` of block `j` of a byte sequence: `LE64(B[8k..8k+7])` (R86). -/
def laneOfBytes (bs : List Byte) (j k : Nat) : Lane := le64 ((bs.drop (136 * j + 8 * k)).take 8)

/-- The 17 lanes `P_j` of block `j` (R106). -/
def blockLanes (bs : List Byte) (j : Nat) : List Lane := (List.range 17).map (laneOfBytes bs j)

/-- `S xor pad25(P)` (R106). -/
def xorLanes (S : LaneArray) (P : List Lane) : LaneArray := Vector.ofFn fun i => S[i] ^^^ P.getD i 0

/-- The state after `n` blocks, from the all-zero state: `S_i = f(S_(i-1) xor pad25(P_i))` (R106). -/
def absorbBlocks (bs : List Byte) : Nat → LaneArray
  | 0 => zeroLanes
  | n + 1 => keccakF (xorLanes (absorbBlocks bs n) (blockLanes bs n))

/-- The state `S_m` after the last block of a message (R106). -/
def finalState (m : List Byte) : LaneArray := absorbBlocks (paddedMessage m) (m.length / 136 + 1)

/-- The Keccak-256 digest: lanes 0 to 3 of `S_m`, each least significant byte first (R43, R106). -/
def keccak256 (m : List Byte) : List Byte :=
  (List.range 4).flatMap fun j => (List.range 8).map (laneByte ((finalState m).toList.getD j 0))

/-- A whole block: `ABSORB_LANE^17 · ADVANCE^4 · INIT(0)` (R90). -/
def blockEvents (bs : List Byte) (j : Nat) : List Event :=
  (blockLanes bs j).map .absorbLane ++ List.replicate 4 .advance ++ [.init false]

/-- The events of a whole digest (R90), with the squeezed lanes `zs`. -/
def digestEvents (m : List Byte) (zs : List Lane) : List Event :=
  .init true :: (List.range (m.length / 136)).flatMap (blockEvents (paddedMessage m)) ++
    (blockLanes (paddedMessage m) (m.length / 136)).map .absorbLane ++ zs.map .squeeze

/-- The lanes FINALIZE issues from `acc`, `fill`, `lanes` (R84, R86). -/
def finalLanes (acc : Lane) (fill : BitVec 3) (lanes : BitVec 5) : List Lane :=
  if fill = 7 ∧ lanes = 16 then [acc ||| 0x8100000000000000]
  else
    let first := acc ||| ((0x01 : Lane) <<< (8 * fill.toNat))
    if lanes = 16 then [first ||| 0x8000000000000000]
    else first :: List.replicate (15 - lanes.toNat) 0 ++ [0x8000000000000000]

/-- The reference collaborator's state with the lanes `P` xored in, the first at lane `at0` (R110). -/
def xorFrom (S : LaneArray) (at0 : Nat) (P : List Lane) : LaneArray :=
  Vector.ofFn fun i => S[i] ^^^ (if at0 ≤ i.val then P.getD (i.val - at0) 0 else 0)

/-- An event with the squeezed lane forgotten. -/
def eraseAnswer : Event → Event
  | .squeeze _ => .squeeze 0
  | .init fresh => .init fresh
  | .absorbLane lane => .absorbLane lane
  | .advance => .advance

/-- Output `n` of the register that generates the round constants (R114): bit `2^(n mod 7) - 1` of `RC[n div 7]`. -/
def lfsrOutput (n : Nat) : Bool := (roundConstants.getD (n / 7) 0).getLsbD (2 ^ (n % 7) - 1)

/-! ### The block's invariant -/

/-- `acc[63:8*fill] = 0` (R26). -/
def upperBytesZero (s : State) : Prop := s.acc >>> (8 * s.fill.toNat) = 0

/-- What the registers hold in each state of the sequencer. In IDLE, that is between commands: `fin = 0` (R32), the
bytes of `acc` at and above `fill` are zero (R26), and the data registers are clear unless a digest is in progress
(R84, R35). -/
def registersFit (s : State) : Prop :=
  match s.seq with
  | .idle => s.fin = false ∧ upperBytesZero s ∧ (s.phase ≠ .active → s.acc = 0 ∧ s.fill = 0 ∧ s.lanes = 0)
  | .emit => s.phase = .active ∧ s.fill = 7 ∧ (s.fin = true → s.lanes.toNat < 16)
  | .init1 => s.phase = .active ∧ s.fin = false ∧ s.acc = 0 ∧ s.fill = 0 ∧ s.lanes = 0
  | .adv0 | .adv1 | .adv2 | .adv3 | .reinit =>
    s.phase = .active ∧ s.fin = false ∧ s.acc = 0 ∧ s.fill = 0 ∧ s.lanes = 16
  | .pad1 => s.phase = .active ∧ s.fin = true ∧ upperBytesZero s ∧ ¬ (s.fill = 7 ∧ s.lanes = 16)
  | .padz => s.phase = .active ∧ s.fin = true ∧ upperBytesZero s
  | .last80 | .last81 | .sq0 | .sq1 | .sq2 | .sq3 =>
    s.phase = .active ∧ s.fin = true ∧ upperBytesZero s ∧ s.fill = 7 ∧ s.lanes = 16

/-- The block's invariant: `0 <= lanes < 17` (R24), the cause is none exactly while there is no error (R120), and the
registers fit the sequencer's state. -/
def BlockInv (s : State) : Prop :=
  s.lanes.toNat < 17 ∧ (s.err = false ↔ s.errCause = .none) ∧ registersFit s

/-! ### The block and the reference collaborator (R115) -/

/-- The lanes the collaborator has received since the last INIT(1), in order (R106). -/
def lanesReceived (trace : List Event) : List Lane :=
  trace.foldl (fun P e =>
    match e with
    | .init true => []
    | .absorbLane lane => P ++ [lane]
    | .init false | .advance | .squeeze _ => P) []

/-- `S_(n-1)` of R106: the state after the first `n` blocks of 17 lanes, from the all-zero state. -/
def stateAfterBlocks (P : List Lane) : Nat → LaneArray
  | 0 => zeroLanes
  | n + 1 => keccakF (xorLanes (stateAfterBlocks P n) ((P.drop (17 * n)).take 17))

/-- What the collaborator's `S` is, by the lanes it has received (R115): with `k` blocks permuted, `S_(k-1)` with the lanes
received after them xored in, and those are its `ai` lanes until the first output step permutes them as well. -/
def stateFits (trace : List Event) (c : Sponge) : Prop :=
  ∃ k, (lanesReceived trace).length = 17 * k + (if c.oi = 0 then c.ai else 0) ∧
    c.S = xorLanes (stateAfterBlocks (lanesReceived trace) k) ((lanesReceived trace).drop (17 * k))

/-- The first `n` quarters of `digest` are the first `n` lanes of the collaborator's state. -/
def captured (c : Sponge) (s : State) (n : Nat) : Prop := ∀ j < n, c.S[j]? = some (quarter j s.digest)

/-- `ai` and `oi` while a digest is in progress, by the sequencer's state (R115, R92). -/
def positionsFit (c : Sponge) (s : State) : Prop :=
  match s.seq with
  | .idle | .emit | .pad1 | .padz => c.ai = s.lanes.toNat ∧ c.oi = 0
  | .adv0 => c.ai = 17 ∧ c.oi = 0
  | .adv1 => c.ai = 17 ∧ c.oi = 1
  | .adv2 => c.ai = 17 ∧ c.oi = 2
  | .adv3 => c.ai = 17 ∧ c.oi = 3
  | .reinit => c.ai = 17 ∧ c.oi = 4
  | .last80 | .last81 => c.ai = 16 ∧ c.oi = 0
  | .sq0 => c.ai = 17 ∧ c.oi = 0
  | .sq1 => c.ai = 17 ∧ c.oi = 1 ∧ captured c s 1
  | .sq2 => c.ai = 17 ∧ c.oi = 2 ∧ captured c s 2
  | .sq3 => c.ai = 17 ∧ c.oi = 3 ∧ captured c s 3
  | .init1 => True

/-- The link between the block and the reference collaborator (R115): nothing is claimed while EMPTY, or before a NEW's
INIT(1) has been taken; while ACTIVE `ai = lanes` and `oi = 0` between commands, and `S` is the state after the completed
blocks with the lanes of the current one xored in; once DONE `ai = 17`, `oi = 4`, `S` is the permuted last state `S_m`, and
its lanes 0 to 3 are in `digest`. -/
def LinkInv (s : State) : Prop :=
  match s.collab with
  | .external => True
  | .unknown => s.phase = .empty ∨ s.seq = .init1
  | .reference c =>
    match s.phase with
    | .empty => True
    | .active => positionsFit c s ∧ (s.seq ≠ .init1 → stateFits s.trace c)
    | .done => c.ai = 17 ∧ c.oi = 4 ∧ captured c s 4 ∧ stateFits s.trace c

/-! ### The call discipline at the sponge port (R105) -/

/-- Where in a word of R105's language a trace stands. -/
inductive Stage where
  /-- no event yet -/
  | start
  /-- after an INIT and `n` lanes of the block -/
  | block (n : Nat)
  /-- after the 17th lane and `n` ADVANCE -/
  | advancing (n : Nat)
  /-- after the 17th lane and `n` SQUEEZE -/
  | squeezing (n : Nat)
  deriving DecidableEq, Repr

/-- The events R105 allows at each stage; INIT(1) starts a new word at any stage. -/
def Stage.after (st : Stage) (e : Event) : Option Stage :=
  match st, e with
  | _, .init true => some (.block 0)
  | .block n, .absorbLane _ => if n < 17 then some (.block (n + 1)) else none
  | .block n, .advance => if n = 17 then some (.advancing 1) else none
  | .advancing n, .advance => if n < 4 then some (.advancing (n + 1)) else none
  | .advancing n, .init false => if n = 4 then some (.block 0) else none
  | .block n, .squeeze _ => if n = 17 then some (.squeezing 1) else none
  | .squeezing n, .squeeze _ => if n < 4 then some (.squeezing (n + 1)) else none
  | _, _ => none

/-- The stage a trace has reached, if R105 allows it. -/
def stageOf (trace : List Event) : Option Stage := trace.foldlM Stage.after .start

/-- The stage the registers say the port has reached; none is said while EMPTY or before a NEW's INIT(1). -/
def expectedStage (s : State) : Option Stage :=
  match s.phase with
  | .empty => none
  | .done => some (.squeezing 4)
  | .active =>
    match s.seq with
    | .idle | .emit | .pad1 | .padz => some (.block s.lanes.toNat)
    | .adv0 => some (.block 17)
    | .adv1 => some (.advancing 1)
    | .adv2 => some (.advancing 2)
    | .adv3 => some (.advancing 3)
    | .reinit => some (.advancing 4)
    | .last80 | .last81 => some (.block 16)
    | .sq0 => some (.block 17)
    | .sq1 => some (.squeezing 1)
    | .sq2 => some (.squeezing 2)
    | .sq3 => some (.squeezing 3)
    | .init1 => none

/-- The call discipline holds of the trace, and the registers say rightly where the port is. -/
def DisciplineInv (s : State) : Prop :=
  ∃ st, stageOf s.trace = some st ∧ ∀ st', expectedStage s = some st' → st = st'

end Sys2Proof.Safety
end

