-- ==== Sys2Proof/Certificates/Slice0/Obligations.lean ====
section
/-!
DEFINITION. The statements for the provers, from the numbered rules of spec/: encoding, the step, the commands and the
sponge operations, errors and reset, the arithmetic of the byte path and of the padding, the invariants, the
micro-sequencer, and the whole digest. Each docstring cites the rule it formalises.
-/

open Sys2Proof Sys2Proof.Machine Sys2Proof.Safety

/-! ### Encoding -/

/-- R62, R66, R67: decoding the word of an instruction gives it back, with every operand at every value. -/
def Obligations.DecodeInvertsEncode : Prop :=
  ∀ i : Instr, decode (encode i) = .ok i

/-- R62, R66, R67: a word that decodes is the word of what it decodes to, so each word has one meaning and no bit of it
is lost. -/
def Obligations.EncodeInvertsDecode : Prop :=
  ∀ (w : PortWord) (i : Instr), decode w = .ok i → encode i = w

/-- R62: every 10-bit word selects exactly one row of the table, the row of what it decodes to. -/
def Obligations.CommandWordSelectsOneRow : Prop :=
  ∀ w : CommandWord, tableRows.filter (PortWord.command w).selects = [(decodeCommand w).row]

/-- R66, R67: a request word decodes exactly when it is a word of the table, and then it selects the row of what it
decodes to; a word outside the table is refused under one of the decoder's three names. -/
def Obligations.RequestWordDecodesInTable : Prop :=
  ∀ w : RequestWord,
    (∀ i, decodeRequest w = .ok i → (PortWord.request w).selects i.row = true) ∧
    ((PortWord.request w).WellFormed = false ↔
      decodeRequest w = .error .initPayload ∨ decodeRequest w = .error .advancePayload ∨
        decodeRequest w = .error .squeezePayload)

/-- A sanity check on words written out in §2.1 of spec/95_test_vectors.md. -/
def Obligations.SpecWordsDecode : Prop :=
  decodeCommand 0b0001010101#10 = .reserved 0x55 ∧ decodeCommand 0b0100000000#10 = .new 0 ∧
  decodeCommand 0b1011000101#10 = .absorb 0xC5 ∧ decodeCommand 0b1111111111#10 = .finalize 0xFF ∧
  decodeRequest 0x00000000000000001#66 = .ok (.init true) ∧
  decodeRequest 0x100017261626F6F66#66 = .ok (.absorbLane 0x00017261626F6F66) ∧
  decodeRequest 0x20000000000000000#66 = .ok .advance ∧ decodeRequest 0x30000000000000000#66 = .ok .squeeze

/-! ### The step -/

/-- R80, R12: an idle block takes the command word presented next and the step is `exec` of what it decodes to, in the
state in which that input has been taken. -/
def Obligations.StepRunsCommand : Prop :=
  ∀ (s : State) (w : CommandWord) (rest : List Input), s.inputs = .command w :: rest → s.seq = .idle →
    decode (.command w) = .ok (decodeCommand w) ∧
    step s = exec (decodeCommand w) { s with inputs := rest }

/-- The model's choice (log 9; V4 only lets a model refuse): a request word presented from outside the block is run by
`exec` if it is a word of the table of R66, and is refused by name if it is not. -/
def Obligations.StepRunsRequest : Prop :=
  ∀ (s : State) (w : RequestWord) (rest : List Input), s.inputs = .request w :: rest →
    (∀ i, decode (.request w) = .ok i → step s = exec i { s with inputs := rest }) ∧
    (∀ why, decode (.request w) = .error why → step s = .refused (.requestOutsideTable why))

/-- What the other inputs do, in the model's form (log 6, DESIGN CHOICE): with nothing presented the state is held, as R131
says of an idle block (that a busy one stands still as well is log 6's choice); a command presented while one is in
progress waits at the port (R72, R146) while the sequencer moves, which is log 6's choice; a clock cycle is a clock cycle.
-/
def Obligations.StepTakesOtherInputs : Prop :=
  ∀ s : State,
    (s.inputs = [] → step s = .next s) ∧
    (∀ w rest, s.inputs = .command w :: rest → s.seq ≠ .idle → step s = .next (clockCycle quietPins s)) ∧
    (∀ p rest, s.inputs = .clock p :: rest → step s = .next (clockCycle p { s with inputs := rest }))

/-- A table row's word placed for the next step is run by it, whatever the state. How a word is placed (the sequencer put
to IDLE, log 13) and how a row's width is read (log 14) are the model's DESIGN CHOICES. -/
def Obligations.PlacedWordRuns : Prop :=
  ∀ (s : State) (nbits w : Nat) (i : Instr), decodeTableWord nbits w = some i →
    step (s.withFetchWord nbits w) = exec i { s with seq := .idle }

/-! ### The commands -/

/-- R81: NEW, in every phase, whatever its ignored data: its whole effect, and nothing else. -/
def Obligations.NewStartsDigest : Prop :=
  ∀ (d : Byte) (s : State), exec (.new d) s = .next
    { s with
      acc := 0, fill := 0, lanes := 0, phase := .active,
      trace := s.trace ++ [.init true], collab := collabInit s.trace true s.collab }

/-- R123, R124: the reserved opcode performs error entry with cause ILLEGAL_OP, first cause kept, and nothing else. -/
def Obligations.ReservedRaisesIllegalOp : Prop :=
  ∀ (d : Byte) (s : State), exec (.reserved d) s = .next
    { s with err := true, errCause := if s.err = true then s.errCause else .illegalOp }

/-- R82, R83: ABSORB while ACTIVE, in the three cases of the normal byte path: a byte placed; the eighth byte of a lane,
which goes out; the 136th byte of a block, whose lane is followed by four ADVANCE and INIT(0). The sponge operations are
those of `exec` on the four requests. Otherwise error entry and nothing else. The invariants of R24 and R26 are kept. -/
def Obligations.AbsorbFollowsBytePath : Prop :=
  ∀ (b : Byte) (s : State),
    (s.phase = .active → s.fill ≠ 7 → exec (.absorb b) s = .next
      { s with acc := s.acc ||| (b.setWidth 64 <<< (8 * s.fill.toNat)), fill := s.fill + 1 }) ∧
    (s.phase = .active → s.fill = 7 → s.lanes ≠ 16 → exec (.absorb b) s = .next
      { s with
        acc := 0, fill := 0, lanes := s.lanes + 1,
        trace := s.trace ++ [.absorbLane (s.acc ||| (b.setWidth 64 <<< 56))],
        collab := collabAbsorb (s.acc ||| (b.setWidth 64 <<< 56)) s.collab }) ∧
    (s.phase = .active → s.fill = 7 → s.lanes = 16 → ∃ t,
      runCommands [.absorbLane (s.acc ||| (b.setWidth 64 <<< 56)), .advance, .advance, .advance, .advance, .init false] s
        = .next t ∧
      t.trace = s.trace ++ [.absorbLane (s.acc ||| (b.setWidth 64 <<< 56)),
        .advance, .advance, .advance, .advance, .init false] ∧
      exec (.absorb b) s = .next { s with acc := 0, fill := 0, lanes := 0, trace := t.trace, collab := t.collab }) ∧
    (s.phase ≠ .active → exec (.absorb b) s = .next
      { s with err := true, errCause := if s.err = true then s.errCause else .absorbNotActive }) ∧
    (s.lanes.toNat < 17 → upperBytesZero s → ∀ t, exec (.absorb b) s = .next t →
      t.lanes.toNat < 17 ∧ upperBytesZero t)

/-- R103, R110, R111: the 136th byte of a block has the reference collaborator permute once, with the 17th lane xored
in, and stand ready for the next block. -/
def Obligations.BlockFlushPermutesReference : Prop :=
  ∀ (b : Byte) (s : State) (c : Sponge), s.phase = .active → s.fill = 7 → s.lanes = 16 →
    s.collab = .reference c → c.ai = 16 → c.oi = 0 →
    ∃ t, exec (.absorb b) s = .next t ∧
      t.collab = .reference
        { S := keccakF (c.S.set 16 (c.S[16] ^^^ (s.acc ||| (b.setWidth 64 <<< 56)))), ai := 0, oi := 0 }

/-- R84, R86: FINALIZE while ACTIVE, from any state in which the byte path leaves the block: it completes, it issues
exactly the lanes that finish the padded block and then four SQUEEZE, the digest is the four returned lanes whatever they
are, the data registers are clear, and nothing else changes. Otherwise error entry and nothing else. -/
def Obligations.FinalizeCompletes : Prop :=
  ∀ (d : Byte) (s : State),
    (s.phase = .active → s.lanes.toNat < 17 → upperBytesZero s →
      ∃ z0 z1 z2 z3 c, exec (.finalize d) s = .next
        { s with
          acc := 0, fill := 0, lanes := 0, phase := .done, digest := z3 ++ z2 ++ z1 ++ z0,
          trace := s.trace ++ (finalLanes s.acc s.fill s.lanes).map .absorbLane ++
            [.squeeze z0, .squeeze z1, .squeeze z2, .squeeze z3],
          collab := c }) ∧
    (s.phase ≠ .active → exec (.finalize d) s = .next
      { s with err := true, errCause := if s.err = true then s.errCause else .finalizeNotActive })

/-- R110, R111: FINALIZE with the reference collaborator in step with the block: the digest is lanes 0 to 3 of the
permuted state with the last lanes of the block xored in. -/
def Obligations.FinalizeSqueezesReference : Prop :=
  ∀ (d : Byte) (s : State) (c : Sponge) (K : LaneArray), s.phase = .active → s.lanes.toNat < 17 → upperBytesZero s →
    s.collab = .reference c → c.ai = s.lanes.toNat → c.oi = 0 →
    K = keccakF (xorFrom c.S s.lanes.toNat (finalLanes s.acc s.fill s.lanes)) →
    ∃ t, exec (.finalize d) s = .next t ∧ t.collab = .reference { S := K, ai := 17, oi := 4 } ∧
      t.digest = K[3] ++ K[2] ++ K[1] ++ K[0]

/-- R63: the data bits of NEW, FINALIZE and the reserved opcode have no effect. -/
def Obligations.DataBitsIgnored : Prop :=
  ∀ (d d' : Byte) (s : State), exec (.new d) s = exec (.new d') s ∧
    exec (.finalize d) s = exec (.finalize d') s ∧ exec (.reserved d) s = exec (.reserved d') s

/-- R37: which command writes which register. The hidden registers and the inputs are no command's to write. -/
def Obligations.CommandsWriteTheirRegistersOnly : Prop :=
  ∀ (d : Byte) (s t : State),
    (exec (.new d) s = .next t → t.acc = 0 ∧ t.fill = 0 ∧ t.lanes = 0 ∧ t.phase = .active ∧ t.err = s.err ∧
      t.errCause = s.errCause ∧ t.digest = s.digest ∧ t.seq = s.seq ∧ t.fin = s.fin ∧ t.inputs = s.inputs) ∧
    (exec (.absorb d) s = .next t → s.phase = .active → t.phase = s.phase ∧ t.err = s.err ∧
      t.errCause = s.errCause ∧ t.digest = s.digest ∧ t.seq = s.seq ∧ t.fin = s.fin ∧ t.inputs = s.inputs) ∧
    (exec (.finalize d) s = .next t → s.phase = .active → t.acc = 0 ∧ t.fill = 0 ∧ t.lanes = 0 ∧ t.phase = .done ∧
      t.err = s.err ∧ t.errCause = s.errCause ∧ t.seq = s.seq ∧ t.fin = s.fin ∧ t.inputs = s.inputs) ∧
    (exec (.absorb d) s = .next t → s.phase ≠ .active →
      t = { s with err := true, errCause := t.errCause }) ∧
    (exec (.finalize d) s = .next t → s.phase ≠ .active →
      t = { s with err := true, errCause := t.errCause }) ∧
    (exec (.reserved d) s = .next t → t = { s with err := true, errCause := t.errCause })

/-- R93: the lifecycle table, and with it exactly which command in which phase is an error. -/
def Obligations.LifecycleTable : Prop :=
  ∀ (i : Instr) (s : State), (takeReset s).phase = .empty ∧
    ∃ t, exec i s = .next t ∧ t.phase = nextPhase i s.phase ∧
    (∀ c, misuse i s.phase = some c → t.err = true ∧ t.trace = s.trace ∧
      t.errCause = if s.err = true then s.errCause else c) ∧
    (misuse i s.phase = none → t.err = s.err ∧ t.errCause = s.errCause)

/-! ### The sponge operations -/

/-- R16: each sponge operation completes in every state, adds its one event to the trace and changes no register of the
block. -/
def Obligations.SpongeOperationsComplete : Prop :=
  ∀ s : State,
    (∀ f, ∃ c, exec (.init f) s = .next { s with trace := s.trace ++ [.init f], collab := c }) ∧
    (∀ l, ∃ c, exec (.absorbLane l) s = .next { s with trace := s.trace ++ [.absorbLane l], collab := c }) ∧
    (∃ c, exec .advance s = .next { s with trace := s.trace ++ [.advance], collab := c }) ∧
    (∃ z c, exec .squeeze s = .next { s with trace := s.trace ++ [.squeeze z], collab := c })

/-- R109: the reference collaborator's INIT, always permitted. -/
def Obligations.ReferenceInit : Prop :=
  ∀ (f : Bool) (s : State) (c : Sponge), s.collab = .reference c → exec (.init f) s = .next
    { s with
      trace := s.trace ++ [.init f],
      collab := .reference { S := if f = true then Vector.replicate 25 0 else c.S, ai := 0, oi := 0 } }

/-- R110: the reference collaborator's ABSORB_LANE, where permitted: lane `ai` of the state is xored and no other. -/
def Obligations.ReferenceAbsorbLane : Prop :=
  ∀ (l : Lane) (s : State) (c : Sponge), s.collab = .reference c → c.ai < 17 → c.oi = 0 →
    ∃ S' : LaneArray, exec (.absorbLane l) s = .next
      { s with
        trace := s.trace ++ [.absorbLane l],
        collab := .reference { S := S', ai := c.ai + 1, oi := 0 } } ∧
      ∀ i : Fin 25, S'[i] = if i.val = c.ai then c.S[i] ^^^ l else c.S[i]

/-- R111: the reference collaborator's output step, where permitted, by ADVANCE and by SQUEEZE: the state is permuted at
the first step only, the returned lane is lane `oi`, and ADVANCE discards it. -/
def Obligations.ReferenceOutputStep : Prop :=
  ∀ (s : State) (c : Sponge) (K : LaneArray) (z : Lane), s.collab = .reference c → c.ai = 17 → c.oi < 4 →
    K = (if c.oi = 0 then keccakF c.S else c.S) → K[c.oi]? = some z →
    exec .advance s = .next
      { s with
        trace := s.trace ++ [.advance], collab := .reference { S := K, ai := 17, oi := c.oi + 1 } } ∧
    exec .squeeze s = .next
      { s with
        trace := s.trace ++ [.squeeze z], collab := .reference { S := K, ai := 17, oi := c.oi + 1 } }

/-- R103, R111: after 17 lanes, four ADVANCE and INIT(0) amount to one permutation and a collaborator ready for the next
block. -/
def Obligations.FourAdvancesPermuteOnce : Prop :=
  ∀ (s : State) (c : Sponge), s.collab = .reference c → c.ai = 17 → c.oi = 0 →
    runCommands [.advance, .advance, .advance, .advance, .init false] s = .next
      { s with
        trace := s.trace ++ [.advance, .advance, .advance, .advance, .init false],
        collab := .reference { S := keccakF c.S, ai := 0, oi := 0 } }

/-- R104, R106: after 17 lanes, four SQUEEZE return lanes 0 to 3 of the permuted state, in order, and the requests change
nothing else. -/
def Obligations.FourSqueezesReturnTheLanes : Prop :=
  ∀ (s : State) (c : Sponge) (K : LaneArray), s.collab = .reference c → c.ai = 17 → c.oi = 0 → K = keccakF c.S →
    runCommands [.squeeze, .squeeze, .squeeze, .squeeze] s = .next
      { s with
        trace := s.trace ++ [.squeeze K[0], .squeeze K[1], .squeeze K[2], .squeeze K[3]],
        collab := .reference { S := K, ai := 17, oi := 4 } }

/-- R68, R92, R104: the cycle in which the request of the sequencer's state SQj is taken does at the port what SQUEEZE does,
writes the returned lane to `digest[64j+63:64j]` unchanged, and keeps the other quarters. -/
def Obligations.SqueezeWritesItsQuarter : Prop :=
  ∀ (s : State) (p : Pins) (j : Fin 4), s.seq = squeezeState j → p.rst = false → p.spReady = true →
    ∃ z u t, exec .squeeze s = .next u ∧ t = clockCycle p s ∧
      t.trace = s.trace ++ [.squeeze z] ∧ t.trace = u.trace ∧ t.collab = u.collab ∧
      quarter j.val t.digest = z ∧ ∀ k : Fin 4, k ≠ j → quarter k.val t.digest = quarter k.val s.digest

/-- U8, R107, R115: a collaborator of which nothing is known, be it another one or the reference one in an unknown state,
takes every request. Both INIT put the reference one's `ai` and `oi` to 0 and INIT(1) zeroes its state (R109, R141); the
state INIT(0) keeps is not known: a free value of the events sent so far (the model's rendering, log 3). Every other
request leaves what is known as it was, and the lane an output step returns is a free value of the events sent so far
(log 2; what is unknown when, logs 3 and 4). -/
def Obligations.UnknownAnswersAreFree : Prop :=
  ∀ s : State, s.collab = .external ∨ s.collab = .unknown →
    (∀ f, exec (.init f) s = .next
      { s with
        trace := s.trace ++ [.init f],
        collab := if s.collab = .unknown then
          .reference { S := if f = true then Vector.replicate 25 0 else Config.freeState s.trace, ai := 0, oi := 0 }
          else s.collab }) ∧
    (∀ l, exec (.absorbLane l) s = .next { s with trace := s.trace ++ [.absorbLane l] }) ∧
    exec .advance s = .next { s with trace := s.trace ++ [.advance] } ∧
    exec .squeeze s = .next { s with trace := s.trace ++ [.squeeze (Config.freeLane s.trace)] }

/-- R107: the block does not check the collaborator: with another collaborator in its place every operation still
completes, the events are the same but for the lanes returned, and so are all registers but `digest`. -/
def Obligations.CollaboratorReachesDigestOnly : Prop :=
  ∀ (i : Instr) (s t : State) (c : Collaborator), exec i s = .next t →
    ∃ t', exec i { s with collab := c } = .next t' ∧
      t' = { t with digest := t'.digest, trace := t'.trace, collab := t'.collab } ∧
      t'.trace.map eraseAnswer = t.trace.map eraseAnswer ∧
      ((∀ d, i ≠ .finalize d) → t'.digest = t.digest)

/-- R36: nothing but a command or a reset changes a register: a request from outside the block changes the trace and the
collaborator only, and an idle block to which nothing is presented holds its state over a clock cycle (R131). -/
def Obligations.OnlyCommandsAndResetWriteRegisters : Prop :=
  ∀ (s t : State) (rest : List Input), step s = .next t →
    (∀ w, s.inputs = .request w :: rest → t = { s with trace := t.trace, collab := t.collab, inputs := rest }) ∧
    (∀ p, s.inputs = .clock p :: rest → s.seq = .idle → p.rst = false → p.cmdValid = false →
      t = { s with inputs := rest })

/-! ### Errors and reset -/

/-- R28, R125: no step but a reset clears `err` or touches the first cause. -/
def Obligations.ErrorIsSticky : Prop :=
  ∀ s t : State, step s = .next t → s.err = true → ¬ resetRequested s → t.err = true ∧ t.errCause = s.errCause

/-- R125: an error changes nothing in how a later command executes: with any other `err` and `err_cause` it does the same
to everything else (a collaborator of which nothing is known giving the same answers to the same events, log 2). -/
def Obligations.ErrorsDoNotInterfere : Prop :=
  ∀ (i : Instr) (s t : State) (e : Bool) (c : ErrCause), exec i s = .next t →
    ∃ t', exec i { s with err := e, errCause := c } = .next t' ∧
      t' = { t with err := t'.err, errCause := t'.errCause }

/-- R140: reset is the only way to reach EMPTY and the only way to clear `err`. -/
def Obligations.OnlyResetReachesEmpty : Prop :=
  ∀ s t : State, step s = .next t → ¬ resetRequested s →
    (t.phase = .empty → s.phase = .empty) ∧ (t.err = false → s.err = false)

/-- R35: the registers after reset. The trace is empty, nothing is known of the collaborator (R115, R141) and no input is
presented: the model's own fields. -/
def Obligations.ResetValues : Prop :=
  State.reset.acc = 0 ∧ State.reset.fill = 0 ∧ State.reset.lanes = 0 ∧ State.reset.phase = .empty ∧
  State.reset.err = false ∧ State.reset.errCause = .none ∧ State.reset.digest = 0 ∧ State.reset.seq = .idle ∧
  State.reset.fin = false ∧ digestValid State.reset = false ∧ busy State.reset = false

/-- R140, R141, R142: a reset request, between commands or in any clock cycle, puts every register at its reset value,
issues no sponge operation and keeps the events already carried; a command offered in that cycle is not accepted. That
nothing is known of the reference collaborator afterwards is R115's, and the inputs to come are the model's own. -/
def Obligations.ResetTakesEffect : Prop :=
  ∀ (s r : State) (rest : List Input),
    r = { acc := 0, fill := 0, lanes := 0, phase := .empty, err := false, errCause := .none, digest := 0, seq := .idle,
          fin := false, trace := s.trace, collab := collabForget s.collab, inputs := rest } →
    (s.inputs = .reset :: rest → step s = .next r) ∧
    (∀ p, s.inputs = .clock p :: rest → p.rst = true →
      step s = .next r ∧ cmdReady p s = false ∧ spValid p s = false)

/-- R30: the two derived status outputs; between the commands of an idle block `busy` stays 0. -/
def Obligations.DerivedOutputs : Prop :=
  ∀ s : State, (digestValid s = true ↔ s.phase = .done) ∧ (busy s = true ↔ s.seq ≠ .idle) ∧
    ∀ (i : Instr) (t : State), exec i s = .next t → busy t = busy s

/-- R29, R122: while `digest_valid = 1` no step but a reset changes `digest`. -/
def Obligations.ValidDigestIsStable : Prop :=
  ∀ s t : State, BlockInv s → digestReadable s → step s = .next t → ¬ resetRequested s → t.digest = s.digest

/-! ### Arithmetic -/

/-- R41: the byte placed when `fill = k` is byte position `k` of the lane, and the positions below keep their bytes. -/
def Obligations.PlacedByteStandsAtFill : Prop :=
  ∀ (acc : Lane) (fill : BitVec 3) (b : Byte), acc >>> (8 * fill.toNat) = 0 →
    laneByte (placeByte acc fill b) fill.toNat = b ∧
    (∀ k, k < fill.toNat → laneByte (placeByte acc fill b) k = laneByte acc k) ∧
    (∀ k, fill.toNat < k → laneByte (placeByte acc fill b) k = 0)

/-- R26, R94: placing by `|`, by `+` and by `^` give the same lane. -/
def Obligations.PlacementsAgree : Prop :=
  ∀ (acc : Lane) (fill : BitVec 3) (b : Byte), acc >>> (8 * fill.toNat) = 0 →
    placeByte acc fill b = acc + (b.setWidth 64 <<< (8 * fill.toNat)) ∧
    placeByte acc fill b = acc ^^^ (b.setWidth 64 <<< (8 * fill.toNat))

/-- R88: the marker addition never carries. -/
def Obligations.MarkerNeverCarries : Prop :=
  ∀ (acc : Lane) (m : Byte), acc >>> 56 = 0 →
    acc + markerTop m = acc ||| markerTop m ∧ acc + markerTop m = acc ^^^ markerTop m ∧
    acc + markerTop m = m ++ acc.extractLsb' 0 56 ∧ acc.toNat + (markerTop m).toNat < 2 ^ 64

/-- R85: the range of `bytes_to_pad` and its two ends. -/
def Obligations.BytesToPadRange : Prop :=
  ∀ (fill : BitVec 3) (lanes : BitVec 5), lanes.toNat < 17 →
    1 ≤ bytesToPad fill lanes ∧ bytesToPad fill lanes ≤ 136 ∧
    (bytesToPad fill lanes = 1 ↔ fill = 7 ∧ lanes = 16) ∧ (bytesToPad fill lanes = 2 ↔ fill = 6 ∧ lanes = 16) ∧
    (bytesToPad fill lanes = 136 ↔ fill = 0 ∧ lanes = 0)

/-- R87: the padding's byte injections bring the block to 135 bytes, flush `16 - lanes` lanes and never a block. -/
def Obligations.PaddingStopsAtByte135 : Prop :=
  ∀ s t : State, s.lanes.toNat < 17 → upperBytesZero s → bytesToPad s.fill s.lanes ≠ 1 →
    t = injectZeros (bytesToPad s.fill s.lanes - 2).toNat (injectByte 0x01 s) →
    t.fill = 7 ∧ t.lanes = 16 ∧ upperBytesZero t ∧
    ∃ ls : List Lane, ls.length = 16 - s.lanes.toNat ∧ t.trace = s.trace ++ ls.map .absorbLane

/-- R43, R73: digest byte `8j+i` is byte `i` of the `j`-th lane returned. -/
def Obligations.DigestByteOrder : Prop :=
  ∀ (z : Fin 4 → Lane) (j : Fin 4) (i : Nat), i < 8 →
    digestByte (assembleDigest (z 0) (z 1) (z 2) (z 3)) (8 * j.val + i) = laneByte (z j) i

/-- R112: theta, rho and pi, chi and iota move and mix the lanes as the rule's formulas say, and Keccak-f is the 24 rounds of
them in order. -/
def Obligations.RoundFollowsFormulas : Prop :=
  ∀ (a : LaneArray) (rc : Lane) (x y : Fin 5),
    columnParity a x = laneAt a x 0 ^^^ laneAt a x 1 ^^^ laneAt a x 2 ^^^ laneAt a x 3 ^^^ laneAt a x 4 ∧
    laneAt (theta a) x y = laneAt a x y ^^^ (columnParity a (x + 4) ^^^ rol (columnParity a (x + 1)) 1) ∧
    laneAt (rhoPi a) y (2 * x + 3 * y) = rol (laneAt a x y) (rotationOffset x y) ∧
    laneAt (chi a) x y = laneAt a x y ^^^ (~~~ laneAt a (x + 1) y &&& laneAt a (x + 2) y) ∧
    laneAt (iota rc a) x y = (if x = 0 ∧ y = 0 then laneAt a x y ^^^ rc else laneAt a x y) ∧
    roundConstants.length = 24 ∧
    keccakF a = roundConstants.foldl (fun a' rc' => iota rc' (chi (rhoPi (theta a')))) a

/-- R113, R114: the rotation offsets, row `x` and column `y`; the round constants by round number; their ones stand at
positions `2^j - 1` with `j` = 0 to 6 only, and bit `2^j - 1` of round `i`, taken as output `7i + j`, follows the recurrence
of the polynomial `x^8 + x^6 + x^5 + x^4 + 1`. -/
def Obligations.KeccakTables : Prop :=
  (List.finRange 5).map (fun x => (List.finRange 5).map (rotationOffset x)) =
    [[0, 36, 3, 41, 18], [1, 44, 10, 45, 2], [62, 6, 43, 15, 61], [28, 55, 25, 21, 56], [27, 20, 39, 8, 14]] ∧
  roundConstants.length = 24 ∧
  (∀ e ∈ ([
       (0, 0x0000000000000001), (1, 0x0000000000008082), (2, 0x800000000000808A),
       (3, 0x8000000080008000), (4, 0x000000000000808B), (5, 0x0000000080000001),
       (6, 0x8000000080008081), (7, 0x8000000000008009), (8, 0x000000000000008A),
       (9, 0x0000000000000088), (10, 0x0000000080008009), (11, 0x000000008000000A),
       (12, 0x000000008000808B), (13, 0x800000000000008B), (14, 0x8000000000008089),
       (15, 0x8000000000008003), (16, 0x8000000000008002), (17, 0x8000000000000080),
       (18, 0x000000000000800A), (19, 0x800000008000000A), (20, 0x8000000080008081),
       (21, 0x8000000000008080), (22, 0x0000000080000001), (23, 0x8000000080008008)] : List (Nat × Lane)),
    roundConstants[e.1]? = some e.2) ∧
  (∀ i < 24, roundConstants.getD i 0 &&& ~~~ laneWithBits [0, 1, 3, 7, 15, 31, 63] = 0) ∧
  ∀ n < 160, lfsrOutput (n + 8) = (lfsrOutput (n + 6) ^^ lfsrOutput (n + 5) ^^ lfsrOutput (n + 4) ^^ lfsrOutput n)

/-! ### Invariants -/

/-- The state after reset meets the three invariants. -/
def Obligations.ResetMeetsInvariants : Prop :=
  BlockInv State.reset ∧ LinkInv State.reset ∧ DisciplineInv State.reset

/-- R23, R24, R26: every step keeps the block's invariant, whatever the inputs and the collaborator. -/
def Obligations.StepKeepsBlockInv : Prop :=
  ∀ s t : State, BlockInv s → step s = .next t → BlockInv t

/-- R115: while no one else uses its collaborator, every step keeps the link between the block and the reference
collaborator: its positions, its state `S` by the lanes received, and the lanes in `digest`. -/
def Obligations.StepKeepsLink : Prop :=
  ∀ s t : State, BlockInv s → LinkInv s → portIsOurs s → step s = .next t → LinkInv t ∧ portIsOurs t

/-- R105: every step keeps the call discipline, whatever the collaborator. -/
def Obligations.StepKeepsDiscipline : Prop :=
  ∀ s t : State, BlockInv s → DisciplineInv s → portIsOurs s → step s = .next t → DisciplineInv t ∧ portIsOurs t

/-! ### The micro-sequencer -/

/-- R92, R150: the sequencer refines the commands: from an idle block that accepts a command word, at most 157 cycles
after the acceptance the block is idle again, with the registers, the events and the collaborator that the command
leaves when run as a whole. -/
def Obligations.CyclesRefineCommands : Prop :=
  ∀ (s t : State) (w : CommandWord), BlockInv s → s.seq = .idle → exec (decodeCommand w) s = .next t →
    ∃ n, n ≤ 157 ∧ runCycles (offerPins w :: List.replicate n quietPins) s = t

/-- R142: a reset after any number of a command's cycles, in which the collaborator may take the block's request or not,
leaves the registers at their reset values and the events of the command that had already passed the port, cut between
two events. -/
def Obligations.ResetCutsCommandBetweenEvents : Prop :=
  ∀ (s t r : State) (w : CommandWord) (p q : Pins) (ps : List Pins), BlockInv s → s.seq = .idle →
    exec (decodeCommand w) s = .next t → p.rst = false → p.cmdValid = true → p.cmd = w →
    (∀ p' ∈ ps, p'.rst = false ∧ p'.cmdValid = false) → q.rst = true → r = runCycles (p :: (ps ++ [q])) s →
    s.trace <+: r.trace ∧ r.trace <+: t.trace ∧ r.acc = 0 ∧ r.fill = 0 ∧ r.lanes = 0 ∧ r.phase = .empty ∧
    r.err = false ∧ r.errCause = .none ∧ r.digest = 0 ∧ r.seq = .idle ∧ r.fin = false

/-- R54, R72, R92, R151: an accepted command takes effect exactly once and no more than delayed, whatever the collaborator's
readiness: when it has been ready in 157 of the cycles after the acceptance, the state is the one the command leaves when
run as a whole. That holds of a NEW whose INIT(1) is not taken in the cycle that accepts it, which waits in a state of its
own (R92's note; the model's choice, log 8). -/
def Obligations.StallsOnlyDelayCommands : Prop :=
  ∀ (s t : State) (w : CommandWord) (p : Pins) (ps : List Pins), BlockInv s → s.seq = .idle →
    exec (decodeCommand w) s = .next t → p.rst = false → p.cmdValid = true → p.cmd = w →
    (∀ p' ∈ ps, p'.rst = false ∧ p'.cmdValid = false) → 157 ≤ (ps.filter (fun p' => p'.spReady)).length →
    cmdReady p s = true ∧ runCycles (p :: ps) s = t

/-- R54, R72, R146: a busy block accepts no command, and neither its step nor its request depends on what stands at the
command port: only the reset request and `sp_ready` matter. -/
def Obligations.BusyBlockIgnoresCommandPort : Prop :=
  ∀ (s : State) (p p' : Pins), s.seq ≠ .idle → p.rst = p'.rst → p.spReady = p'.spReady →
    cmdReady p s = false ∧ clockCycle p s = clockCycle p' s ∧ spReq p s = spReq p' s

/-- R72, R92, R151: a busy block whose request the collaborator does not take stays as it is for as long as that lasts,
with `busy = 1` and no command accepted. A NEW offered to an idle block is accepted even so (`cmd_ready = not busy`): it
writes its registers, the block is busy for as long as the INIT(1) is not taken, and when it is, NEW is complete. That it
waits in a state of its own is the model's choice (R92's note, log 8). -/
def Obligations.StalledBlockWaits : Prop :=
  ∀ (p : Pins) (s : State) (n : Nat), spValid p s = true → p.spReady = false →
    (s.seq ≠ .idle → runCycles (List.replicate n p) s = s ∧ busy s = true ∧ cmdReady p s = false) ∧
    (s.seq = .idle → cmdReady p s = true ∧ ∃ t, t = runCycles (List.replicate (n + 1) p) s ∧
      t = { s with acc := 0, fill := 0, lanes := 0, phase := .active, seq := .init1 } ∧
      busy t = true ∧ cmdReady p t = false ∧ spReq p t = some (encode (.init true)) ∧
      exec (decodeCommand p.cmd) s = .next (clockCycle { p with spReady := true } t))

/-- R72, R146: a command presented to a busy block waits, and within 157 steps the block is idle with the command still
standing at the port. That each of those steps is a cycle in which the collaborator takes the block's request is the
model's DESIGN CHOICE (log 6): R151 itself gives no bound. -/
def Obligations.WaitingCommandIsReached : Prop :=
  ∀ (s : State) (w : CommandWord) (rest : List Input), BlockInv s → s.inputs = .command w :: rest →
    ∃ n t, n ≤ 157 ∧ Sys2Proof.core.run n s = .next t ∧ t.seq = .idle ∧ t.inputs = s.inputs

/-! ### The whole digest -/

/-- R25, R26: after NEW and any number of ABSORB the position in the block and the bytes held in `acc` are those of the
message. -/
def Obligations.PositionFollowsMessage : Prop :=
  ∀ (m : List Byte) (s : State), ∃ t, runCommands (.new 0 :: m.map .absorb) s = .next t ∧
    t.phase = .active ∧ t.lanes.toNat = m.length % 136 / 8 ∧ t.fill.toNat = m.length % 8 ∧
    t.acc = le64 (m.drop (8 * (m.length / 8))) ∧ t.digest = s.digest ∧ t.err = s.err

/-- R86, R90: for every message and from every state of an idle block, whatever the collaborator, the `L + 2` commands of
`keccak256` complete, and the sponge port carries exactly the padded message's lanes, a block transition after each
whole block, and four SQUEEZE whose lanes are the digest. -/
def Obligations.WholeDigestTrace : Prop :=
  ∀ (m : List Byte) (s : State) (rest : List Input), s.seq = .idle → s.inputs = keccak256Inputs m ++ rest →
    ∃ t z0 z1 z2 z3, Sys2Proof.core.run (m.length + 2) s = .next t ∧
      t.trace = s.trace ++ digestEvents m [z0, z1, z2, z3] ∧ t.digest = z3 ++ z2 ++ z1 ++ z0 ∧
      t.phase = .done ∧ t.err = s.err ∧ t.errCause = s.errCause ∧ t.inputs = rest

/-- R4, R89, R91, R106: with the reference collaborator behind the port, in any state whatever, the digest that the `L + 2`
commands of `keccak256` leave is the Keccak-256 digest of the message. -/
def Obligations.DigestIsKeccak256 : Prop :=
  ∀ (m : List Byte) (s : State) (rest : List Input), s.seq = .idle → s.collab ≠ .external →
    s.inputs = keccak256Inputs m ++ rest →
    ∃ t, Sys2Proof.core.run (m.length + 2) s = .next t ∧ digestReadable t ∧
      digestBytes t.digest = Sys2Proof.Safety.keccak256 m

/-- R46, R90, R150: the padded message is whole blocks, its event list has `22 * (L div 136) + 22` events, and by exactly
that many the `L + 2` commands of `keccak256` make the trace longer, from every state of an idle block. -/
def Obligations.WholeDigestEventCount : Prop :=
  ∀ (m : List Byte) (s : State) (rest : List Input), s.seq = .idle → s.inputs = keccak256Inputs m ++ rest →
    ∃ t, Sys2Proof.core.run (m.length + 2) s = .next t ∧ s.trace <+: t.trace ∧
      t.trace.length = s.trace.length + (22 * (m.length / 136) + 22) ∧
      (paddedMessage m).length = 136 * (m.length / 136 + 1) ∧
      ∀ z0 z1 z2 z3 : Lane, (digestEvents m [z0, z1, z2, z3]).length = 22 * (m.length / 136) + 22
end

