-- ==== Sys2Proof/Laws/State.lean ====
section
/-!
SUPPORT. What each shared update of State does to each field: one lemma per field per update, true by definition, so that
no proof unfolds a record update.
-/

namespace Sys2Proof.Machine

/-! ### issue -/

@[simp] theorem issue_acc (e : Event) (c : Collaborator) (s : State) : (issue e c s).acc = s.acc := rfl
@[simp] theorem issue_fill (e : Event) (c : Collaborator) (s : State) : (issue e c s).fill = s.fill := rfl
@[simp] theorem issue_lanes (e : Event) (c : Collaborator) (s : State) : (issue e c s).lanes = s.lanes := rfl
@[simp] theorem issue_phase (e : Event) (c : Collaborator) (s : State) : (issue e c s).phase = s.phase := rfl
@[simp] theorem issue_err (e : Event) (c : Collaborator) (s : State) : (issue e c s).err = s.err := rfl
@[simp] theorem issue_errCause (e : Event) (c : Collaborator) (s : State) : (issue e c s).errCause = s.errCause := rfl
@[simp] theorem issue_digest (e : Event) (c : Collaborator) (s : State) : (issue e c s).digest = s.digest := rfl
@[simp] theorem issue_seq (e : Event) (c : Collaborator) (s : State) : (issue e c s).seq = s.seq := rfl
@[simp] theorem issue_fin (e : Event) (c : Collaborator) (s : State) : (issue e c s).fin = s.fin := rfl
@[simp] theorem issue_trace (e : Event) (c : Collaborator) (s : State) : (issue e c s).trace = s.trace ++ [e] := rfl
@[simp] theorem issue_collab (e : Event) (c : Collaborator) (s : State) : (issue e c s).collab = c := rfl
@[simp] theorem issue_inputs (e : Event) (c : Collaborator) (s : State) : (issue e c s).inputs = s.inputs := rfl

/-! ### spInit -/

@[simp] theorem spInit_acc (f : Bool) (s : State) : (spInit f s).acc = s.acc := rfl
@[simp] theorem spInit_fill (f : Bool) (s : State) : (spInit f s).fill = s.fill := rfl
@[simp] theorem spInit_lanes (f : Bool) (s : State) : (spInit f s).lanes = s.lanes := rfl
@[simp] theorem spInit_phase (f : Bool) (s : State) : (spInit f s).phase = s.phase := rfl
@[simp] theorem spInit_err (f : Bool) (s : State) : (spInit f s).err = s.err := rfl
@[simp] theorem spInit_errCause (f : Bool) (s : State) : (spInit f s).errCause = s.errCause := rfl
@[simp] theorem spInit_digest (f : Bool) (s : State) : (spInit f s).digest = s.digest := rfl
@[simp] theorem spInit_seq (f : Bool) (s : State) : (spInit f s).seq = s.seq := rfl
@[simp] theorem spInit_fin (f : Bool) (s : State) : (spInit f s).fin = s.fin := rfl
@[simp] theorem spInit_trace (f : Bool) (s : State) : (spInit f s).trace = s.trace ++ [.init f] := rfl
@[simp] theorem spInit_collab (f : Bool) (s : State) : (spInit f s).collab = collabInit s.trace f s.collab := rfl
@[simp] theorem spInit_inputs (f : Bool) (s : State) : (spInit f s).inputs = s.inputs := rfl

/-! ### spAbsorbLane -/

@[simp] theorem spAbsorbLane_acc (l : Lane) (s : State) : (spAbsorbLane l s).acc = s.acc := rfl
@[simp] theorem spAbsorbLane_fill (l : Lane) (s : State) : (spAbsorbLane l s).fill = s.fill := rfl
@[simp] theorem spAbsorbLane_lanes (l : Lane) (s : State) : (spAbsorbLane l s).lanes = s.lanes := rfl
@[simp] theorem spAbsorbLane_phase (l : Lane) (s : State) : (spAbsorbLane l s).phase = s.phase := rfl
@[simp] theorem spAbsorbLane_err (l : Lane) (s : State) : (spAbsorbLane l s).err = s.err := rfl
@[simp] theorem spAbsorbLane_errCause (l : Lane) (s : State) : (spAbsorbLane l s).errCause = s.errCause := rfl
@[simp] theorem spAbsorbLane_digest (l : Lane) (s : State) : (spAbsorbLane l s).digest = s.digest := rfl
@[simp] theorem spAbsorbLane_seq (l : Lane) (s : State) : (spAbsorbLane l s).seq = s.seq := rfl
@[simp] theorem spAbsorbLane_fin (l : Lane) (s : State) : (spAbsorbLane l s).fin = s.fin := rfl
@[simp] theorem spAbsorbLane_trace (l : Lane) (s : State) : (spAbsorbLane l s).trace = s.trace ++ [.absorbLane l] := rfl
@[simp] theorem spAbsorbLane_collab (l : Lane) (s : State) : (spAbsorbLane l s).collab = collabAbsorb l s.collab := rfl
@[simp] theorem spAbsorbLane_inputs (l : Lane) (s : State) : (spAbsorbLane l s).inputs = s.inputs := rfl

/-! ### spAdvance -/

@[simp] theorem spAdvance_acc (s : State) : (spAdvance s).acc = s.acc := rfl
@[simp] theorem spAdvance_fill (s : State) : (spAdvance s).fill = s.fill := rfl
@[simp] theorem spAdvance_lanes (s : State) : (spAdvance s).lanes = s.lanes := rfl
@[simp] theorem spAdvance_phase (s : State) : (spAdvance s).phase = s.phase := rfl
@[simp] theorem spAdvance_err (s : State) : (spAdvance s).err = s.err := rfl
@[simp] theorem spAdvance_errCause (s : State) : (spAdvance s).errCause = s.errCause := rfl
@[simp] theorem spAdvance_digest (s : State) : (spAdvance s).digest = s.digest := rfl
@[simp] theorem spAdvance_seq (s : State) : (spAdvance s).seq = s.seq := rfl
@[simp] theorem spAdvance_fin (s : State) : (spAdvance s).fin = s.fin := rfl
@[simp] theorem spAdvance_trace (s : State) : (spAdvance s).trace = s.trace ++ [.advance] := rfl
@[simp] theorem spAdvance_collab (s : State) : (spAdvance s).collab = (collabOutput s.trace s.collab).2 := rfl
@[simp] theorem spAdvance_inputs (s : State) : (spAdvance s).inputs = s.inputs := rfl

/-! ### spSqueeze -/

@[simp] theorem spSqueeze_acc (s : State) : (spSqueeze s).acc = s.acc := rfl
@[simp] theorem spSqueeze_fill (s : State) : (spSqueeze s).fill = s.fill := rfl
@[simp] theorem spSqueeze_lanes (s : State) : (spSqueeze s).lanes = s.lanes := rfl
@[simp] theorem spSqueeze_phase (s : State) : (spSqueeze s).phase = s.phase := rfl
@[simp] theorem spSqueeze_err (s : State) : (spSqueeze s).err = s.err := rfl
@[simp] theorem spSqueeze_errCause (s : State) : (spSqueeze s).errCause = s.errCause := rfl
@[simp] theorem spSqueeze_digest (s : State) : (spSqueeze s).digest = s.digest := rfl
@[simp] theorem spSqueeze_seq (s : State) : (spSqueeze s).seq = s.seq := rfl
@[simp] theorem spSqueeze_fin (s : State) : (spSqueeze s).fin = s.fin := rfl
@[simp] theorem spSqueeze_trace (s : State) : (spSqueeze s).trace = s.trace ++ [.squeeze (squeezed s)] := rfl
@[simp] theorem spSqueeze_collab (s : State) : (spSqueeze s).collab = (collabOutput s.trace s.collab).2 := rfl
@[simp] theorem spSqueeze_inputs (s : State) : (spSqueeze s).inputs = s.inputs := rfl

/-! ### squeezeInto -/

@[simp] theorem squeezeInto_acc (j : Fin 4) (s : State) : (squeezeInto j s).acc = s.acc := rfl
@[simp] theorem squeezeInto_fill (j : Fin 4) (s : State) : (squeezeInto j s).fill = s.fill := rfl
@[simp] theorem squeezeInto_lanes (j : Fin 4) (s : State) : (squeezeInto j s).lanes = s.lanes := rfl
@[simp] theorem squeezeInto_phase (j : Fin 4) (s : State) : (squeezeInto j s).phase = s.phase := rfl
@[simp] theorem squeezeInto_err (j : Fin 4) (s : State) : (squeezeInto j s).err = s.err := rfl
@[simp] theorem squeezeInto_errCause (j : Fin 4) (s : State) : (squeezeInto j s).errCause = s.errCause := rfl
@[simp] theorem squeezeInto_digest (j : Fin 4) (s : State) : (squeezeInto j s).digest = setQuarter j (squeezed s) s.digest := rfl
@[simp] theorem squeezeInto_seq (j : Fin 4) (s : State) : (squeezeInto j s).seq = s.seq := rfl
@[simp] theorem squeezeInto_fin (j : Fin 4) (s : State) : (squeezeInto j s).fin = s.fin := rfl
@[simp] theorem squeezeInto_trace (j : Fin 4) (s : State) : (squeezeInto j s).trace = s.trace ++ [.squeeze (squeezed s)] := rfl
@[simp] theorem squeezeInto_collab (j : Fin 4) (s : State) : (squeezeInto j s).collab = (collabOutput s.trace s.collab).2 := rfl
@[simp] theorem squeezeInto_inputs (j : Fin 4) (s : State) : (squeezeInto j s).inputs = s.inputs := rfl

/-! ### errorEntry -/

@[simp] theorem errorEntry_acc (c : ErrCause) (s : State) : (errorEntry c s).acc = s.acc := rfl
@[simp] theorem errorEntry_fill (c : ErrCause) (s : State) : (errorEntry c s).fill = s.fill := rfl
@[simp] theorem errorEntry_lanes (c : ErrCause) (s : State) : (errorEntry c s).lanes = s.lanes := rfl
@[simp] theorem errorEntry_phase (c : ErrCause) (s : State) : (errorEntry c s).phase = s.phase := rfl
@[simp] theorem errorEntry_err (c : ErrCause) (s : State) : (errorEntry c s).err = true := rfl
@[simp] theorem errorEntry_errCause (c : ErrCause) (s : State) : (errorEntry c s).errCause = firstCause s.err s.errCause c := rfl
@[simp] theorem errorEntry_digest (c : ErrCause) (s : State) : (errorEntry c s).digest = s.digest := rfl
@[simp] theorem errorEntry_seq (c : ErrCause) (s : State) : (errorEntry c s).seq = s.seq := rfl
@[simp] theorem errorEntry_fin (c : ErrCause) (s : State) : (errorEntry c s).fin = s.fin := rfl
@[simp] theorem errorEntry_trace (c : ErrCause) (s : State) : (errorEntry c s).trace = s.trace := rfl
@[simp] theorem errorEntry_collab (c : ErrCause) (s : State) : (errorEntry c s).collab = s.collab := rfl
@[simp] theorem errorEntry_inputs (c : ErrCause) (s : State) : (errorEntry c s).inputs = s.inputs := rfl

/-! ### clearData -/

@[simp] theorem clearData_acc (s : State) : (clearData s).acc = 0 := rfl
@[simp] theorem clearData_fill (s : State) : (clearData s).fill = 0 := rfl
@[simp] theorem clearData_lanes (s : State) : (clearData s).lanes = 0 := rfl
@[simp] theorem clearData_phase (s : State) : (clearData s).phase = s.phase := rfl
@[simp] theorem clearData_err (s : State) : (clearData s).err = s.err := rfl
@[simp] theorem clearData_errCause (s : State) : (clearData s).errCause = s.errCause := rfl
@[simp] theorem clearData_digest (s : State) : (clearData s).digest = s.digest := rfl
@[simp] theorem clearData_seq (s : State) : (clearData s).seq = s.seq := rfl
@[simp] theorem clearData_fin (s : State) : (clearData s).fin = s.fin := rfl
@[simp] theorem clearData_trace (s : State) : (clearData s).trace = s.trace := rfl
@[simp] theorem clearData_collab (s : State) : (clearData s).collab = s.collab := rfl
@[simp] theorem clearData_inputs (s : State) : (clearData s).inputs = s.inputs := rfl

/-! ### openDigest -/

@[simp] theorem openDigest_acc (s : State) : (openDigest s).acc = 0 := rfl
@[simp] theorem openDigest_fill (s : State) : (openDigest s).fill = 0 := rfl
@[simp] theorem openDigest_lanes (s : State) : (openDigest s).lanes = 0 := rfl
@[simp] theorem openDigest_phase (s : State) : (openDigest s).phase = .active := rfl
@[simp] theorem openDigest_err (s : State) : (openDigest s).err = s.err := rfl
@[simp] theorem openDigest_errCause (s : State) : (openDigest s).errCause = s.errCause := rfl
@[simp] theorem openDigest_digest (s : State) : (openDigest s).digest = s.digest := rfl
@[simp] theorem openDigest_seq (s : State) : (openDigest s).seq = s.seq := rfl
@[simp] theorem openDigest_fin (s : State) : (openDigest s).fin = s.fin := rfl
@[simp] theorem openDigest_trace (s : State) : (openDigest s).trace = s.trace := rfl
@[simp] theorem openDigest_collab (s : State) : (openDigest s).collab = s.collab := rfl
@[simp] theorem openDigest_inputs (s : State) : (openDigest s).inputs = s.inputs := rfl

/-! ### startDigest -/

@[simp] theorem startDigest_acc (s : State) : (startDigest s).acc = 0 := rfl
@[simp] theorem startDigest_fill (s : State) : (startDigest s).fill = 0 := rfl
@[simp] theorem startDigest_lanes (s : State) : (startDigest s).lanes = 0 := rfl
@[simp] theorem startDigest_phase (s : State) : (startDigest s).phase = .active := rfl
@[simp] theorem startDigest_err (s : State) : (startDigest s).err = s.err := rfl
@[simp] theorem startDigest_errCause (s : State) : (startDigest s).errCause = s.errCause := rfl
@[simp] theorem startDigest_digest (s : State) : (startDigest s).digest = s.digest := rfl
@[simp] theorem startDigest_seq (s : State) : (startDigest s).seq = s.seq := rfl
@[simp] theorem startDigest_fin (s : State) : (startDigest s).fin = s.fin := rfl
@[simp] theorem startDigest_trace (s : State) : (startDigest s).trace = s.trace ++ [.init true] := rfl
@[simp] theorem startDigest_collab (s : State) : (startDigest s).collab = collabInit s.trace true s.collab := rfl
@[simp] theorem startDigest_inputs (s : State) : (startDigest s).inputs = s.inputs := rfl

/-! ### takeReset -/

@[simp] theorem takeReset_acc (s : State) : (takeReset s).acc = 0 := rfl
@[simp] theorem takeReset_fill (s : State) : (takeReset s).fill = 0 := rfl
@[simp] theorem takeReset_lanes (s : State) : (takeReset s).lanes = 0 := rfl
@[simp] theorem takeReset_phase (s : State) : (takeReset s).phase = .empty := rfl
@[simp] theorem takeReset_err (s : State) : (takeReset s).err = false := rfl
@[simp] theorem takeReset_errCause (s : State) : (takeReset s).errCause = .none := rfl
@[simp] theorem takeReset_digest (s : State) : (takeReset s).digest = 0 := rfl
@[simp] theorem takeReset_seq (s : State) : (takeReset s).seq = .idle := rfl
@[simp] theorem takeReset_fin (s : State) : (takeReset s).fin = false := rfl
@[simp] theorem takeReset_trace (s : State) : (takeReset s).trace = s.trace := rfl
@[simp] theorem takeReset_collab (s : State) : (takeReset s).collab = collabForget s.collab := rfl
@[simp] theorem takeReset_inputs (s : State) : (takeReset s).inputs = s.inputs := rfl

end Sys2Proof.Machine
end

