-- ==== Sys2Proof/Laws/Ops.lean ====
section
/-!
SUPPORT. What each shared operation can do, said once: the collaborator's operations, the normal byte path, the padding
loop, the sequencer's placement, `fetch` and `step`.
-/

namespace Sys2Proof.Machine

open Sys2Proof.Safety

/-! ### Operands -/

/-- A zero byte leaves the lane as it is (R83 (a): it still advances `fill`). -/
@[simp] theorem placeByte_zero (acc : Lane) (fill : BitVec 3) : placeByte acc fill 0#8 = acc := by
  simp [placeByte]

/-- At position 7 the byte lands in the top byte (R94 (a)). -/
theorem placeByte_top (acc : Lane) (b : Byte) : placeByte acc 7 b = acc ||| (b.setWidth 64 <<< 56) := rfl

/-! ### The collaborator -/

@[simp] theorem collabInit_external (tr : List Event) (f : Bool) : collabInit tr f .external = .external := rfl
@[simp] theorem collabAbsorb_external (l : Lane) : collabAbsorb l .external = .external := rfl
@[simp] theorem collabOutput_external (tr : List Event) :
    collabOutput tr .external = (Config.freeLane tr, .external) := rfl
@[simp] theorem collabInit_reference (tr : List Event) (f : Bool) (c : Sponge) :
    collabInit tr f (.reference c) = .reference (spongeInit f c) := rfl

/-- Both INIT make the reference collaborator's positions known; INIT(0) keeps a state that is not (R109). -/
@[simp] theorem collabInit_unknown (tr : List Event) (f : Bool) : collabInit tr f .unknown =
    .reference { S := if f = true then zeroLanes else Config.freeState tr, ai := 0, oi := 0 } := rfl

/-- INIT(1) makes the reference collaborator's state known, whatever it was (R109, R144). -/
theorem collabInit_fresh (tr : List Event) {c : Collaborator} (h : c ≠ .external) :
    collabInit tr true c = .reference { S := zeroLanes, ai := 0, oi := 0 } := by
  cases c with
  | reference c => rfl
  | unknown => rfl
  | external => exact absurd rfl h

/-- ABSORB_LANE where the reference collaborator permits it (R110). -/
theorem collabAbsorb_permitted (l : Lane) (c : Sponge) (h : spongeMayAbsorb c) :
    collabAbsorb l (.reference c) = .reference (spongeAbsorb l c h) := by
  exact dif_pos h

/-- An output step where the reference collaborator permits it (R111). -/
theorem collabOutput_permitted (tr : List Event) (c : Sponge) (h : spongeMayOutput c) :
    collabOutput tr (.reference c) = ((spongeOutput c h).1, .reference (spongeOutput c h).2) := by
  exact dif_pos h

/-! ### The normal byte path (R82) -/

/-- A byte that does not complete its lane is placed, and nothing leaves the block. -/
theorem injectByte_place (b : Byte) (s : State) (h : s.fill ≠ 7) :
    injectByte b s = { s with acc := placeByte s.acc s.fill b, fill := s.fill + 1 } := by
  simp only [injectByte, if_neg h]

/-- The eighth byte of a lane: the lane leaves the block. -/
theorem injectByte_lane (b : Byte) (s : State) (h : s.fill = 7) (hl : s.lanes ≠ 16) :
    injectByte b s =
      { spAbsorbLane (placeByte s.acc 7 b) s with acc := 0, fill := 0, lanes := s.lanes + 1 } := by
  simp only [injectByte, flushLane, if_neg hl, h]; rfl

/-- The 136th byte of a block: the lane leaves, then the block transition. -/
theorem injectByte_block (b : Byte) (s : State) (h : s.fill = 7) (hl : s.lanes = 16) :
    injectByte b s =
      { blockTransition (spAbsorbLane (placeByte s.acc 7 b) s) with acc := 0, fill := 0, lanes := 0 } := by
  simp only [injectByte, flushLane, if_pos hl, h]; rfl

/-- The byte path touches none of the other registers. -/
theorem injectByte_frame (b : Byte) (s : State) :
    (injectByte b s).phase = s.phase ∧ (injectByte b s).err = s.err ∧ (injectByte b s).errCause = s.errCause ∧
      (injectByte b s).digest = s.digest ∧ (injectByte b s).seq = s.seq ∧ (injectByte b s).fin = s.fin ∧
      (injectByte b s).inputs = s.inputs := by
  by_cases h : s.fill = 7
  · by_cases hl : s.lanes = 16
    · simp [injectByte_block b s h hl, blockTransition]
    · simp [injectByte_lane b s h hl]
  · simp [injectByte_place b s h]

/-- The events of a block transition: `ADVANCE^4 · INIT(0)` (R82). -/
theorem blockTransition_trace (s : State) :
    (blockTransition s).trace = s.trace ++ [.advance, .advance, .advance, .advance, .init false] := by
  simp [blockTransition]

/-! ### The padding loop (R84) -/

@[simp] theorem injectZeros_zero (s : State) : injectZeros 0 s = s := rfl

theorem injectZeros_succ (n : Nat) (s : State) : injectZeros (n + 1) s = injectZeros n (injectByte 0x00 s) := rfl

theorem injectZeros_add (m n : Nat) (s : State) : injectZeros (m + n) s = injectZeros n (injectZeros m s) := by
  induction m generalizing s with
  | zero => simp
  | succ m ih => rw [Nat.succ_add, injectZeros_succ, injectZeros_succ, ih]

/-- Zeros that stay inside a lane only move `fill`. -/
theorem injectZeros_within (n : Nat) (s : State) (h : s.fill.toNat + n ≤ 7) :
    injectZeros n s = { s with fill := s.fill + BitVec.ofNat 3 n } := by
  induction n generalizing s with
  | zero => simp
  | succ n ih =>
    have hf : s.fill ≠ 7 := by intro h7; simp [h7] at h
    have ht : (s.fill + 1).toNat = s.fill.toNat + 1 := by
      rw [BitVec.toNat_add]; simp; omega
    rw [injectZeros_succ, injectByte_place _ _ hf, ih _ (by simp only [ht]; omega)]
    have e : s.fill + 1 + BitVec.ofNat 3 n = s.fill + BitVec.ofNat 3 (n + 1) := by
      rw [BitVec.add_assoc, BitVec.add_comm 1, BitVec.ofNat_add]; rfl
    simp only [e, show (0x00 : Byte) = 0#8 from rfl, placeByte_zero]

/-- Zeros that complete a lane which is not the block's last: the lane leaves the block as it is. -/
theorem injectZeros_lane (s : State) (hl : s.lanes ≠ 16) :
    injectZeros (8 - s.fill.toNat) s =
      { spAbsorbLane s.acc s with acc := 0, fill := 0, lanes := s.lanes + 1 } := by
  have hb : s.fill.toNat < 8 := s.fill.isLt
  have h7 : s.fill + BitVec.ofNat 3 (7 - s.fill.toNat) = 7 := by
    apply BitVec.eq_of_toNat_eq; rw [BitVec.toNat_add]; simp; omega
  rw [show 8 - s.fill.toNat = (7 - s.fill.toNat) + 1 by omega, injectZeros_add,
    injectZeros_within (7 - s.fill.toNat) s (by omega), h7, injectZeros_succ, injectZeros_zero]
  rw [injectByte_lane 0x00 { s with fill := 7 } rfl hl, show (0x00 : Byte) = 0#8 from rfl, placeByte_zero]
  rfl

/-! ### The sequencer's placement (R92) -/

/-- `Place(b)` inside a lane. -/
theorem place_within (b : Byte) (s : State) (h : s.fill ≠ 7) :
    place b s =
      { s with acc := placeByte s.acc s.fill b, fill := s.fill + 1, seq := seqAfterByte s.fin } := by
  simp only [place, if_neg h]

/-- `Place(b)` at the eighth byte of a lane. -/
theorem place_full (b : Byte) (s : State) (h : s.fill = 7) :
    place b s = { s with acc := placeByte s.acc 7 b, seq := .emit } := by
  simp only [place, h]; rfl

/-- A cycle without a reset request in which the collaborator is ready is one micro-step (R92). -/
theorem clockCycle_ready (p : Pins) (s : State) (hr : p.rst = false) (hs : p.spReady = true) :
    clockCycle p s = microStep p s := by
  simp [clockCycle, stalled, hr, hs]

/-- A busy block's request that is not taken is held, and nothing moves (R92, R151). -/
@[simp] theorem holdRequest_busy {s : State} (h : s.seq ≠ .idle) : holdRequest s = s := if_neg h

/-- A NEW accepted while the collaborator is not ready: its register writes, and a state of its own. -/
theorem holdRequest_idle {s : State} (h : s.seq = .idle) : holdRequest s = { openDigest s with seq := .init1 } := if_pos h

/-- An idle block's request is the INIT(1) of a NEW presented to it. -/
theorem spValid_idle (p : Pins) (s : State) (h : s.seq = .idle) :
    spValid p s = (!p.rst && (p.cmdValid && commandOp p.cmd == 0b01#2)) := by
  cases hr : p.rst <;> cases hv : (p.cmdValid && commandOp p.cmd == 0b01#2) <;>
    simp only [spValid, pendingRequest, h, hr, hv] <;> rfl

/-- A busy block's request does not depend on what stands at the command port. -/
theorem pendingRequest_busy (p p' : Pins) (s : State) (h : s.seq ≠ .idle) (hr : p.rst = p'.rst) :
    pendingRequest p s = pendingRequest p' s := by
  unfold pendingRequest
  rw [hr]
  split
  · rfl
  · split <;> first | rfl | exact absurd ‹_› h

/-- Nor does its micro-step. -/
theorem microStep_busy (p p' : Pins) (s : State) (h : s.seq ≠ .idle) : microStep p s = microStep p' s := by
  unfold microStep
  split <;> first | rfl | exact absurd ‹_› h

/-- Everything a clock cycle can do. -/
theorem clockCycle_cases (p : Pins) (s : State) :
    (p.rst = true ∧ clockCycle p s = takeReset s) ∨
    (p.rst = false ∧ spValid p s = true ∧ p.spReady = false ∧ s.seq ≠ .idle ∧ clockCycle p s = s) ∨
    (p.rst = false ∧ p.cmdValid = true ∧ commandOp p.cmd = 0b01#2 ∧ p.spReady = false ∧ s.seq = .idle ∧
      clockCycle p s = { openDigest s with seq := .init1 }) ∨
    (p.rst = false ∧ stalled p s = false ∧ clockCycle p s = microStep p s) := by
  cases hr : p.rst
  · right
    cases hs : stalled p s
    · exact .inr (.inr ⟨rfl, rfl, by simp [clockCycle, hr, hs]⟩)
    · have hv : spValid p s = true ∧ p.spReady = false := by simpa [stalled] using hs
      by_cases h : s.seq = .idle
      · have ho : p.cmdValid = true ∧ commandOp p.cmd = 0b01#2 := by
          simpa [spValid_idle p s h, hr] using hv.1
        exact .inr (.inl ⟨rfl, ho.1, ho.2, hv.2, h, by simp [clockCycle, hr, hs, holdRequest_idle h]⟩)
      · exact .inl ⟨rfl, hv.1, hv.2, h, by simp [clockCycle, hr, hs, holdRequest_busy h]⟩
  · exact .inl ⟨rfl, by simp [clockCycle, hr]⟩

/-! ### The lanes received (R106, R115) -/

@[simp] theorem lanesReceived_init (trace : List Event) : lanesReceived (trace ++ [.init true]) = [] := by
  simp [lanesReceived]

@[simp] theorem lanesReceived_reinit (trace : List Event) :
    lanesReceived (trace ++ [.init false]) = lanesReceived trace := by simp [lanesReceived]

@[simp] theorem lanesReceived_absorbLane (trace : List Event) (l : Lane) :
    lanesReceived (trace ++ [.absorbLane l]) = lanesReceived trace ++ [l] := by simp [lanesReceived]

@[simp] theorem lanesReceived_advance (trace : List Event) :
    lanesReceived (trace ++ [.advance]) = lanesReceived trace := by simp [lanesReceived]

@[simp] theorem lanesReceived_squeeze (trace : List Event) (z : Lane) :
    lanesReceived (trace ++ [.squeeze z]) = lanesReceived trace := by simp [lanesReceived]

@[simp] theorem xorLanes_nil (S : LaneArray) : xorLanes S [] = S := by
  ext i hi
  simp [xorLanes]

/-- A block's state depends on the lanes of the blocks up to it only. -/
theorem stateAfterBlocks_append (P Q : List Lane) (k : Nat) (h : 17 * k ≤ P.length) :
    stateAfterBlocks (P ++ Q) k = stateAfterBlocks P k := by
  induction k with
  | zero => rfl
  | succ k ih =>
    rw [stateAfterBlocks, stateAfterBlocks, ih (by omega), List.drop_append_of_le_length (by omega),
      List.take_append_of_le_length (by rw [List.length_drop]; omega)]

/-- INIT(1) starts the link afresh. -/
theorem stateFits_init (trace : List Event) :
    stateFits (trace ++ [.init true]) { S := zeroLanes, ai := 0, oi := 0 } :=
  ⟨0, by simp, by simp [stateAfterBlocks]⟩

/-- INIT(0) after the output steps keeps it. -/
theorem stateFits_reinit {trace : List Event} {c : Sponge} (h : stateFits trace c) (ho : c.oi ≠ 0) :
    stateFits (trace ++ [.init false]) (spongeInit false c) := by
  obtain ⟨k, hk, hS⟩ := h
  exact ⟨k, by simpa [spongeInit, ho] using hk, by simpa [spongeInit] using hS⟩

/-- Xoring in one more lane is xoring it into the next lane of the state (R110). -/
theorem xorLanes_snoc (S : LaneArray) (Q : List Lane) (l : Lane) (h : Q.length < 25) :
    xorLanes S (Q ++ [l]) = (xorLanes S Q).set Q.length ((xorLanes S Q)[Q.length] ^^^ l) := by
  ext1 i hi
  simp only [xorLanes, Vector.getElem_set, Vector.getElem_ofFn, Fin.getElem_fin, List.getD_eq_getElem?_getD]
  by_cases e : Q.length = i
  · subst e; simp
  · rw [if_neg e]
    rcases Nat.lt_or_gt_of_ne e with hlt | hgt
    · simp [hlt, Nat.not_lt.2 (Nat.le_of_lt hlt)]
    · simp [List.getElem?_append, hgt]

/-- ABSORB_LANE where permitted keeps it. -/
theorem stateFits_absorb {trace : List Event} {c : Sponge} (h : stateFits trace c) (l : Lane) (hp : spongeMayAbsorb c) :
    stateFits (trace ++ [.absorbLane l]) (spongeAbsorb l c hp) := by
  obtain ⟨k, hk, hS⟩ := h
  have hd : ((lanesReceived trace).drop (17 * k)).length = c.ai := by
    rw [List.length_drop, hk, if_pos hp.2]; omega
  refine ⟨k, by simp [spongeAbsorb, hk, hp.2]; omega, ?_⟩
  rw [lanesReceived_absorbLane, stateAfterBlocks_append _ _ _ (by omega), List.drop_append_of_le_length (by omega),
    xorLanes_snoc _ _ _ (by omega)]
  simp only [spongeAbsorb, ← hS, hd]

/-- An output step where permitted keeps it: the first one permutes the block (R111). -/
theorem stateFits_output {trace : List Event} {c : Sponge} (h : stateFits trace c) (e : Event)
    (he : lanesReceived (trace ++ [e]) = lanesReceived trace) (hp : spongeMayOutput c) :
    stateFits (trace ++ [e]) (spongeOutput c hp).2 := by
  obtain ⟨k, hk, hS⟩ := h
  by_cases ho : c.oi = 0
  · have hd : ((lanesReceived trace).drop (17 * k)).length = 17 := by
      rw [List.length_drop, hk, if_pos ho, hp.1]; omega
    refine ⟨k + 1, by rw [he, hk]; simp [spongeOutput, ho, hp.1]; omega, ?_⟩
    rw [he, stateAfterBlocks, List.take_of_length_le hd.le, ← hS, List.drop_eq_nil_of_le (by
      rw [hk, if_pos ho, hp.1]; omega), xorLanes_nil]
    simp [spongeOutput, spongePermuted, ho]
  · refine ⟨k, by rw [he, hk]; simp [spongeOutput, ho], ?_⟩
    rw [he, ← hS]
    simp [spongeOutput, spongePermuted, ho]

/-! ### The step -/

/-- Everything a step can do. -/
theorem step_cases {s t : State} (h : step s = .next t) :
    (s.inputs = [] ∧ t = s) ∨
    (∃ w rest, s.inputs = .command w :: rest ∧ s.seq = .idle ∧
      exec (decodeCommand w) { s with inputs := rest } = .next t) ∨
    (∃ w rest, s.inputs = .command w :: rest ∧ s.seq ≠ .idle ∧ t = clockCycle quietPins s) ∨
    (∃ rest, s.inputs = .reset :: rest ∧ t = takeReset { s with inputs := rest }) ∨
    (∃ p rest, s.inputs = .clock p :: rest ∧ t = clockCycle p { s with inputs := rest }) ∨
    (∃ w i rest, s.inputs = .request w :: rest ∧ decodeRequest w = .ok i ∧
      exec i { s with inputs := rest } = .next t) := by
  unfold step fetch at h
  split at h
  next i s' hf =>
    split at hf
    · cases hf
    · next w rest hi =>
      split at hf
      · next hq => cases hf; exact .inr (.inl ⟨w, rest, hi, hq, h⟩)
      · cases hf
    · cases hf
    · cases hf
    · next w rest hi =>
      split at hf
      · next hd => cases hf; exact .inr (.inr (.inr (.inr (.inr ⟨w, i, rest, hi, hd, h⟩))))
      · cases hf
  next s' hf =>
    cases h
    split at hf
    · next hi => cases hf; exact .inl ⟨hi, rfl⟩
    · next w rest hi =>
      split at hf
      · cases hf
      · next hq => cases hf; exact .inr (.inr (.inl ⟨w, rest, hi, hq, rfl⟩))
    · next rest hi => cases hf; exact .inr (.inr (.inr (.inl ⟨rest, hi, rfl⟩)))
    · next p rest hi => cases hf; exact .inr (.inr (.inr (.inr (.inl ⟨p, rest, hi, rfl⟩))))
    · split at hf <;> cases hf
  next why hf => cases h

/-- Every instruction answers a next state, in every state: no meaning faults or refuses. -/
theorem exec_total (i : Instr) (s : State) : ∃ t, exec i s = .next t := by
  cases i <;> simp only [exec, execReserved, execNew, execAbsorb, execFinalize, execInit, execAbsorbLane, execAdvance,
    execSqueeze] <;> first | exact ⟨_, rfl⟩ | (split <;> exact ⟨_, rfl⟩)

end Sys2Proof.Machine
end

