-- ==== Sys2Proof/Laws/Padding.lean ====
section
/-!
SUPPORT. What FINALIZE's padding does, said once (R84, R86, R87): it issues the lanes `finalLanes` of the state it starts
from, in order, and leaves the block at byte 135.
-/

namespace Sys2Proof.Machine

open Sys2Proof.Safety

/-- Lanes issued one after the other. -/
def absorbLanes (ls : List Lane) (s : State) : State := ls.foldl (fun t l => spAbsorbLane l t) s

@[simp] theorem absorbLanes_nil (s : State) : absorbLanes [] s = s := rfl

@[simp] theorem absorbLanes_cons (l : Lane) (ls : List Lane) (s : State) :
    absorbLanes (l :: ls) s = absorbLanes ls (spAbsorbLane l s) := rfl

theorem absorbLanes_append (ls ls' : List Lane) (s : State) :
    absorbLanes (ls ++ ls') s = absorbLanes ls' (absorbLanes ls s) := List.foldl_append

/-- Issuing lanes does not depend on the data registers and does not touch them. -/
theorem absorbLanes_data (ls : List Lane) (s : State) (a : Lane) (f : BitVec 3) (n : BitVec 5) :
    absorbLanes ls { s with acc := a, fill := f, lanes := n } =
      { absorbLanes ls s with acc := a, fill := f, lanes := n } := by
  induction ls generalizing s with
  | nil => rfl
  | cons l ls ih => exact ih (spAbsorbLane l s)

/-- Everything issuing lanes does: the events join the trace, the collaborator takes the lanes, no register changes. -/
theorem absorbLanes_eq (ls : List Lane) (s : State) :
    absorbLanes ls s =
      { s with trace := s.trace ++ ls.map .absorbLane, collab := ls.foldl (fun c l => collabAbsorb l c) s.collab } := by
  induction ls generalizing s with
  | nil => simp
  | cons l ls ih => simp [ih, spAbsorbLane, issue]

theorem fill_succ (f : BitVec 3) (h : f ≠ 7) : (f + 1).toNat = f.toNat + 1 := by
  have h7 : f.toNat ≠ 7 := fun e => h (BitVec.eq_of_toNat_eq e)
  have := f.isLt
  rw [BitVec.toNat_add]; simp; omega

theorem fill_lt_seven {f : BitVec 3} (h : f ≠ 7) : f.toNat < 7 := by
  have h7 : f.toNat ≠ 7 := fun e => h (BitVec.eq_of_toNat_eq e)
  have := f.isLt
  omega

theorem lanes_lt_of_ne {n : BitVec 5} (h : n.toNat < 17) (h16 : n ≠ 16) : n.toNat < 16 := by
  have : n.toNat ≠ 16 := fun e => h16 (BitVec.eq_of_toNat_eq e)
  omega

theorem lanes_succ (n : BitVec 5) (h : n.toNat < 16) : (n + 1).toNat = n.toNat + 1 := by
  rw [BitVec.toNat_add]; simp; omega

/-- `8*k` zero bytes from a lane boundary are `k` lanes of zeros, as long as the block is not full. -/
theorem injectZeros_lanes (k : Nat) (s : State) (ha : s.acc = 0) (hf : s.fill = 0) (hl : s.lanes.toNat + k ≤ 16) :
    injectZeros (8 * k) s = { absorbLanes (List.replicate k 0) s with lanes := s.lanes + BitVec.ofNat 5 k } := by
  induction k generalizing s with
  | zero => simp
  | succ k ih =>
    have h16 : s.lanes ≠ 16 := by intro e; simp [e] at hl
    have step8 : injectZeros 8 s = { spAbsorbLane 0 s with acc := 0, fill := 0, lanes := s.lanes + 1 } := by
      have h := injectZeros_lane s h16
      rwa [hf, ha] at h
    have rest := ih { spAbsorbLane 0 s with acc := 0, fill := 0, lanes := s.lanes + 1 } rfl rfl
      (by simp only [lanes_succ _ (show s.lanes.toNat < 16 by omega)]; omega)
    rw [show 8 * (k + 1) = 8 + 8 * k by ring, injectZeros_add, step8, rest]
    have e : s.lanes + 1 + BitVec.ofNat 5 k = s.lanes + BitVec.ofNat 5 (k + 1) := by
      rw [BitVec.add_assoc, BitVec.add_comm 1, BitVec.ofNat_add]; rfl
    simp [List.replicate_succ, absorbLanes_eq, ha, hf]
    exact e

/-- Zeros from a lane boundary to byte 135 of the block. -/
theorem injectZeros_to135 (s : State) (ha : s.acc = 0) (hf : s.fill = 0) (hl : s.lanes.toNat ≤ 16) :
    injectZeros (8 * (16 - s.lanes.toNat) + 7) s =
      { absorbLanes (List.replicate (16 - s.lanes.toNat) 0) s with fill := 7, lanes := 16 } := by
  have e : s.lanes + BitVec.ofNat 5 (16 - s.lanes.toNat) = 16 := by
    apply BitVec.eq_of_toNat_eq; rw [BitVec.toNat_add]; simp; omega
  rw [injectZeros_add, injectZeros_lanes _ s ha hf (by omega), e,
    injectZeros_within 7 _ (by simp [absorbLanes_eq, hf])]
  simp [absorbLanes_eq, hf]

/-! ### The bytes at and above a position are zero (R26) -/

theorem shift_eq_zero_iff (x : Lane) (n : Nat) : x >>> n = 0 ↔ x.toNat < 2 ^ n := by
  rw [← BitVec.toNat_inj, BitVec.toNat_ushiftRight, Nat.shiftRight_eq_div_pow,
    show (0 : Lane).toNat = 0 from rfl, Nat.div_eq_zero_iff]
  have : 2 ^ n ≠ 0 := by positivity
  omega

/-- A byte placed at the first free position leaves the positions above it zero. -/
theorem placeByte_upper (acc : Lane) (f : BitVec 3) (b : Byte) (h : acc.toNat < 2 ^ (8 * f.toNat)) :
    (placeByte acc f b).toNat < 2 ^ (8 * (f.toNat + 1)) := by
  have hf := f.isLt
  have hb := b.isLt
  have e : 2 ^ (8 * (f.toNat + 1)) = 2 ^ (8 * f.toNat) * 2 ^ 8 := by rw [← pow_add]; ring_nf
  have h1 : acc.toNat < 2 ^ (8 * (f.toNat + 1)) := lt_of_lt_of_le h (Nat.pow_le_pow_right (by omega) (by omega))
  have h2 : (b.setWidth 64 <<< (8 * f.toNat)).toNat < 2 ^ (8 * (f.toNat + 1)) := by
    rw [BitVec.toNat_shiftLeft, BitVec.toNat_setWidth, Nat.shiftLeft_eq]
    refine lt_of_le_of_lt (Nat.mod_le _ _) ?_
    rw [e, Nat.mul_comm]
    refine Nat.mul_lt_mul_of_pos_left (lt_of_le_of_lt (Nat.mod_le _ _) hb) (by positivity)
  rw [placeByte, BitVec.toNat_or]
  exact Nat.or_lt_two_pow h1 h2

/-- A marker added above seven bytes is the same as or-ed (R88). -/
theorem add_marker (acc : Lane) (m : Byte) (h : acc.toNat < 2 ^ 56) : acc + markerTop m = acc ||| markerTop m := by
  apply BitVec.add_eq_or_of_and_eq_zero
  apply BitVec.eq_of_getLsbD_eq
  intro i hi
  by_cases h56 : i < 56
  · simp [markerTop, h56]
  · have : acc.getLsbD i = false :=
      Nat.testBit_lt_two_pow (lt_of_lt_of_le h (Nat.pow_le_pow_right (by omega) (by omega)))
    simp [this]

/-- FINALIZE's padding and direct emit, from any state between two bytes of a block: the lanes `finalLanes` go out, the
block stands at byte 135, and no other register changes (R84, R86, R87, R88). -/
theorem padBlock_eq (s : State) (hl : s.lanes.toNat < 17) (hz : upperBytesZero s) :
    ∃ a, padBlock s =
      { absorbLanes (finalLanes s.acc s.fill s.lanes) s with acc := a, fill := 7, lanes := 16 } := by
  have hz' : s.acc.toNat < 2 ^ (8 * s.fill.toNat) := (shift_eq_zero_iff _ _).1 hz
  have hplace := placeByte_upper s.acc s.fill 0x01 hz'
  by_cases h7 : s.fill = 7 <;> by_cases h16 : s.lanes = 16
  · -- the one-byte special case
    rw [h7] at hz'
    refine ⟨s.acc, ?_⟩
    have hp : bytesToPad s.fill s.lanes = 1 := by rw [h7, h16]; rfl
    simp only [padBlock, if_pos hp, add_marker _ _ hz', finalLanes, if_pos (And.intro h7 h16)]
    simp [absorbLanes_eq, spAbsorbLane, issue, h7, h16, markerTop]
  · -- `0x01` completes a lane; the rest is zeros from a lane boundary
    have hlt : s.lanes.toNat < 16 := lanes_lt_of_ne hl h16
    have hp : bytesToPad s.fill s.lanes ≠ 1 := by simp [bytesToPad, h7]; omega
    have hn : (bytesToPad s.fill s.lanes - 2).toNat = 8 * (16 - (s.lanes + 1).toNat) + 7 := by
      rw [lanes_succ _ hlt]; simp [bytesToPad, h7]; omega
    obtain ⟨u, hu⟩ : ∃ u, u = injectByte Config.padStart s := ⟨_, rfl⟩
    have hu' := hu.trans (injectByte_lane _ s h7 h16)
    have hul : u.lanes = s.lanes + 1 := by rw [hu']
    have hz135 := injectZeros_to135 u (by rw [hu']) (by rw [hu']) (by rw [hul, lanes_succ _ hlt]; omega)
    refine ⟨0, ?_⟩
    simp only [padBlock, if_neg hp, ← hu, hn, ← hul, hz135]
    have e : 16 - u.lanes.toNat = 15 - s.lanes.toNat := by rw [hul, lanes_succ _ hlt]; omega
    simp only [e, finalLanes, h16, and_false, if_false, h7]
    simp [hu', absorbLanes_eq, spAbsorbLane, issue, placeByte, markerTop]
  · -- `0x01`, zeros and `0x80` in the block's last lane
    have hf7 : s.fill.toNat < 7 := fill_lt_seven h7
    have hp : bytesToPad s.fill s.lanes ≠ 1 := by simp [bytesToPad, h16]; omega
    have hn : (bytesToPad s.fill s.lanes - 2).toNat = 6 - s.fill.toNat := by
      simp [bytesToPad, h16]; omega
    have h56 : (placeByte s.acc s.fill 0x01).toNat < 2 ^ 56 :=
      lt_of_lt_of_le hplace (Nat.pow_le_pow_right (by omega) (by omega))
    have e7 : s.fill + 1 + BitVec.ofNat 3 (6 - s.fill.toNat) = 7 := by
      apply BitVec.eq_of_toNat_eq; rw [BitVec.toNat_add, fill_succ _ h7]; simp; omega
    refine ⟨placeByte s.acc s.fill 0x01, ?_⟩
    simp only [padBlock, if_neg hp, hn, Config.padStart, injectByte_place _ _ h7]
    rw [injectZeros_within _ _ (by simp only [fill_succ _ h7]; omega), e7]
    simp only [add_marker _ _ h56, finalLanes, h7, false_and, if_false, if_pos h16]
    simp [absorbLanes_eq, spAbsorbLane, issue, placeByte, markerTop, h16, Config.padEnd]
  · -- the lane with `0x01` goes out, then lanes of zeros, then `0x80` alone
    have hlt : s.lanes.toNat < 16 := lanes_lt_of_ne hl h16
    have hf7 : s.fill.toNat < 7 := fill_lt_seven h7
    have hp : bytesToPad s.fill s.lanes ≠ 1 := by simp [bytesToPad]; omega
    obtain ⟨u, hu⟩ : ∃ u, u = injectByte Config.padStart s := ⟨_, rfl⟩
    have hu' := hu.trans (injectByte_place _ s h7)
    have hul : u.lanes = s.lanes := by rw [hu']
    have hlane := injectZeros_lane u (by rw [hul]; exact h16)
    obtain ⟨v, hv⟩ : ∃ v, v = injectZeros (8 - u.fill.toNat) u := ⟨_, rfl⟩
    have hv' := hv.trans hlane
    have hvl : v.lanes = s.lanes + 1 := by rw [hv', hul]
    have hz135 := injectZeros_to135 v (by rw [hv']) (by rw [hv']) (by rw [hvl, lanes_succ _ hlt]; omega)
    have hn : (bytesToPad s.fill s.lanes - 2).toNat = (8 - u.fill.toNat) + (8 * (16 - v.lanes.toNat) + 7) := by
      rw [hvl, lanes_succ _ hlt, show u.fill = s.fill + 1 by rw [hu'], fill_succ _ h7]; simp [bytesToPad]; omega
    have e : 16 - v.lanes.toNat = 15 - s.lanes.toNat := by rw [hvl, lanes_succ _ hlt]; omega
    refine ⟨0, ?_⟩
    simp only [padBlock, if_neg hp, ← hu, hn, injectZeros_add _ _ u, ← hv, hz135]
    simp only [e, finalLanes, h7, false_and, if_false, h16]
    simp [hv', hu', absorbLanes_eq, spAbsorbLane, issue, placeByte, markerTop, Config.padEnd]

end Sys2Proof.Machine
end

