-- ==== Sys2Proof/Laws/PerInstr.lean ====
section
/-!
SUPPORT. A statement about every instruction as syntax: its word selects its row of the opcode table (R62, R66).
-/

namespace Sys2Proof.Laws.RowWord

/-- The word of an instruction agrees with its row: `(word & mask) == match`. -/
def Statement (i : Instr) : Prop := (encode i).selects i.row = true

theorem reserved (data : Byte) : Statement (.reserved data) := by
  revert data; unfold Statement; decide

theorem new (data : Byte) : Statement (.new data) := by
  revert data; unfold Statement; decide

theorem absorb (byte : Byte) : Statement (.absorb byte) := by
  revert byte; unfold Statement; decide

theorem finalize (data : Byte) : Statement (.finalize data) := by
  revert data; unfold Statement; decide

theorem init (fresh : Bool) : Statement (.init fresh) := by
  revert fresh; unfold Statement; decide

theorem absorbLane (lane : Lane) : Statement (.absorbLane lane) := by
  have mask : (0x30000000000000000#66 : RequestWord) = (0b11#2 ++ 0#64 : BitVec (2 + 64)) := by decide
  have pattern : (0x10000000000000000#66 : RequestWord) = (0b01#2 ++ 0#64 : BitVec (2 + 64)) := by decide
  simp only [Statement, encode, Instr.row, PortWord.selects, requestWord, mask, pattern, beq_iff_eq]
  refine (BitVec.and_append (x₁ := 1#2) (x₂ := 3#2) (y₁ := lane) (y₂ := 0#64)).trans ?_
  simp

theorem advance : Statement .advance := by unfold Statement; decide

theorem squeeze : Statement .squeeze := by unfold Statement; decide

end Sys2Proof.Laws.RowWord
end

