-- ==== Sys2Proof/Tests/Slice0.lean ====
section
/-!
SUPPORT. The model's own tests, each on one step or one operation, with expected values from spec/95_test_vectors.md
(the vector's id in each comment) and from the encodings of spec/30_encoding.md; and, for every statement with
hypotheses, a named witness that meets them.
-/

namespace Sys2Proof.Tests

open Sys2Proof.Machine Sys2Proof.Safety

/-! ### Helpers -/

/-- A block between commands with a digest in progress. -/
def active (acc : Lane) (fill : BitVec 3) (lanes : BitVec 5) : State :=
  { State.reset with acc := acc, fill := fill, lanes := lanes, phase := .active }

/-- The same, in a state of the sequencer with FINALIZE in progress. -/
def finishing (q : Seq) (acc : Lane) (fill : BitVec 3) (lanes : BitVec 5) : State :=
  { active acc fill lanes with seq := q, fin := true }

/-- A block whose digest is done. -/
def finished (d : Digest) : State := { State.reset with phase := .done, digest := d }

/-- The reference collaborator with these lanes first in its state. -/
def ref (P : List Lane) (ai oi : Nat) : Collaborator :=
  .reference { S := Vector.ofFn fun i => P.getD i.val 0, ai := ai, oi := oi }

/-- The next state of an outcome. -/
def after : Host.Outcome State Fault Refusal → Option State
  | .next t => some t
  | .fault _ => none
  | .refused _ => none

/-- The data registers, the phase and the events. -/
def view (o : Host.Outcome State Fault Refusal) : Option (Lane × BitVec 3 × BitVec 5 × Phase × List Event) :=
  (after o).map fun t => (t.acc, t.fill, t.lanes, t.phase, t.trace)

/-- The error registers, the phase and the events. -/
def errView (o : Host.Outcome State Fault Refusal) : Option (Bool × ErrCause × Phase × List Event) :=
  (after o).map fun t => (t.err, t.errCause, t.phase, t.trace)

/-! ### Well-formed words: an ill-formed one for each check -/

theorem test_wf_init_payload : PortWord.WellFormed (.request 0x00000000000000002#66) = false := by decide
theorem test_wf_advance_payload : PortWord.WellFormed (.request 0x20000000000000001#66) = false := by decide
theorem test_wf_squeeze_payload : PortWord.WellFormed (.request 0x38000000000000000#66) = false := by decide
theorem test_wf_accepts : [PortWord.request 1, .request 0x1FFFFFFFFFFFFFFFF, .request 0x20000000000000000,
    .request 0x30000000000000000, .command 0x000, .command 0x1A7, .command 0x2FF, .command 0x3FF].all
      PortWord.WellFormed = true := by decide
theorem test_reject_init : decodeRequest 0x00000000000000002#66 = .error .initPayload := rfl
theorem test_reject_advance : decodeRequest 0x20000000000000001#66 = .error .advancePayload := rfl
theorem test_reject_squeeze : decodeRequest 0x38000000000000000#66 = .error .squeezePayload := rfl

/-! ### Decoding words written out from R62, R66, R67 -/

theorem test_decode_reserved : decodeCommand 0b0000000000#10 = .reserved 0 := by decide
theorem test_decode_new : decodeCommand 0b0110100111#10 = .new 0xA7 := by decide
theorem test_decode_absorb : decodeCommand 0b1011000101#10 = .absorb 0xC5 := by decide
theorem test_decode_finalize : decodeCommand 0b1111111111#10 = .finalize 0xFF := by decide
theorem test_decode_init : decodeRequest 0x00000000000000001#66 = .ok (.init true) ∧
    decodeRequest 0x00000000000000000#66 = .ok (.init false) := ⟨rfl, rfl⟩
theorem test_decode_absorbLane :
    decodeRequest 0x100017261626F6F66#66 = .ok (.absorbLane 0x00017261626F6F66) := rfl
theorem test_decode_advance : decodeRequest 0x20000000000000000#66 = .ok .advance := rfl
theorem test_decode_squeeze : decodeRequest 0x30000000000000000#66 = .ok .squeeze := rfl
theorem test_assemble : [Instr.new 0, .absorb 0xC5, .finalize 0].map assemble =
    [some 0x100, some 0x2C5, some 0x300] := by decide
theorem test_table_word : decodeTableWord 16 0x2FF = some (.absorb 0xFF) ∧ decodeTableWord 16 0x400 = none ∧
    decodeTableWord 72 0x30000000000000000 = some .squeeze ∧ decodeTableWord 72 0x40000000000000000 = none := by
  decide

/-! ### NEW (N1, N2) -/

theorem test_new_from_reset : view (exec (.new 0) State.reset) = some (0, 0, 0, .active, [.init true]) := by decide
theorem test_new_abandons :
    view (exec (.new 0) (active 0x30201 3 0)) = some (0, 0, 0, .active, [.init true]) := by decide

/-! ### ABSORB (A4, A5) -/

theorem test_absorb_lane_flush : view (exec (.absorb 0x08) (active 0x0007060504030201 7 3)) =
    some (0, 0, 4, .active, [.absorbLane 0x0807060504030201]) := by decide
theorem test_absorb_block_flush : view (exec (.absorb 0x87) (active 0x0086858483828180 7 16)) =
    some (0, 0, 0, .active,
      [.absorbLane 0x8786858483828180, .advance, .advance, .advance, .advance, .init false]) := by decide

/-! ### RESERVED (E5) and misuse (E3, E6) -/

theorem test_reserved : errView (exec (.reserved 0x55) (active 0x30201 3 0)) =
    some (true, .illegalOp, .active, []) := by decide
theorem test_absorb_after_done : errView (exec (.absorb 1) (finished 5)) =
    some (true, .absorbNotActive, .done, []) := by decide
theorem test_first_cause_kept :
    errView (exec (.finalize 0) { finished 5 with err := true, errCause := .absorbNotActive }) =
      some (true, .absorbNotActive, .done, []) := by decide

/-! ### FINALIZE: the general case with no zero byte (F4c), and whole digests (F1, F5) -/

theorem test_pad_smallest_general : (padBlock (active 0x0000858483828180 6 16)).trace =
    [.absorbLane 0x8001858483828180] := by decide
theorem test_pad_special : (padBlock (active 0x0086858483828180 7 16)).trace =
    [.absorbLane 0x8186858483828180] := by decide
/-- F1: the digest of the empty message. -/
theorem test_finalize_empty :
    (after (exec (.finalize 0) { active 0 0 0 with collab := ref [] 0 0 })).map (fun t => (t.phase, t.digest)) =
      some (.done, 0x70A4855D04D8FA7B3B2782CA53B600E5C003C7DCB27D7E923C23F7860146D2C5) := by
  decide +kernel
/-- The block and the reference collaborator after NEW and the 135 bytes `seq(135)`: 16 lanes sent, seven bytes held. -/
def after135 : State :=
  { active 0x0086858483828180 7 16 with
    collab := ref [0x0706050403020100, 0x0F0E0D0C0B0A0908, 0x1716151413121110, 0x1F1E1D1C1B1A1918,
      0x2726252423222120, 0x2F2E2D2C2B2A2928, 0x3736353433323130, 0x3F3E3D3C3B3A3938,
      0x4746454443424140, 0x4F4E4D4C4B4A4948, 0x5756555453525150, 0x5F5E5D5C5B5A5958,
      0x6766656463626160, 0x6F6E6D6C6B6A6968, 0x7776757473727170, 0x7F7E7D7C7B7A7978] 16 0 }

/-- F5: `seq(135)`, the one-byte special case. -/
theorem test_finalize_135 : (after (exec (.finalize 0) after135)).map (fun t => t.digest) =
    some 0x62CAFAE99C5B595A2EA8F606170E0B29FD19A2956FB0D61838ADFAE5DED9DFCB := by
  decide +kernel
/-- F6: `seq(136)`, a whole block in the message and a block of padding. -/
theorem test_finalize_136 : (after (runCommands [.absorb 135, .finalize 0] after135)).map (fun t => t.digest) =
    some 0x7E807F7D9CD2F59CF87DE1383EFE11FF660A6BC270997137E49C7FABF159E77C := by
  decide +kernel
/-- F7, P3: `seq(137)`, one byte past the block. -/
theorem test_finalize_137 :
    (after (runCommands [.absorb 135, .absorb 136, .finalize 0] after135)).map (fun t => t.digest) =
      some 0xDBB1A3739AE9A8A327320C1F8687419995CE201A7C0064F753848BE6FAD473AC := by
  decide +kernel

/-! ### The sponge operations and the reference collaborator (§2.7) -/

/-- The check values of R112. -/
theorem test_keccakF_zero :
    (keccakF zeroLanes).toList.take 5 = [0xF1258F7940E1DDE7, 0x84D5CCF933C0478A, 0xD598261EA65AA9EE,
      0xBD1547306F80494D, 0x8B284E056253D057] := by
  decide +kernel
/-- R114: three of the constants, the last among them. -/
theorem test_round_constants : (roundConstants[2]?, roundConstants[5]?, roundConstants.getLast?) =
    (some 0x800000000000808A, some 0x0000000080000001, some 0x8000000080008008) := by decide
/-- R113: the offsets are the triangular numbers along the walk `(x, y) <- (y, 2x + 3y)` from `(1, 0)`. -/
theorem test_rotation_walk : rotationOffset 0 0 = 0 ∧
    ((List.range 24).foldl (fun (p : (Fin 5 × Fin 5) × Bool) t =>
      ((p.1.2, 2 * p.1.1 + 3 * p.1.2), p.2 && rotationOffset p.1.1 p.1.2 == ((t + 1) * (t + 2) / 2) % 64))
      ((1, 0), true)).2 = true := by
  decide
theorem test_init : (after (exec (.init true) { State.reset with collab := ref [3] 17 4 })).map
    (fun t => (t.collab, t.trace)) = some (ref [] 0 0, [.init true]) := by decide
/-- R109: INIT(0) puts the positions to 0 even where nothing is known of the reference collaborator. -/
theorem test_reinit_unknown : (after (exec (.init false) State.reset)).map (fun t => t.collab) =
    some (.reference { S := Config.freeState [], ai := 0, oi := 0 }) := rfl
theorem test_absorbLane : (after (exec (.absorbLane 0x0F) { State.reset with collab := ref [1, 2, 0xFF] 2 0 })).map
    (fun t => (t.collab, t.trace)) = some (ref [1, 2, 0xF0] 3 0, [.absorbLane 0x0F]) := by decide
theorem test_advance_discards : (after (exec .advance { State.reset with collab := ref [7, 8, 9] 17 1 })).map
    (fun t => (t.collab, t.trace, t.digest)) = some (ref [7, 8, 9] 17 2, [.advance], 0) := by decide
theorem test_squeeze_yields :
    (after (exec .squeeze { finishing .sq1 0 7 16 with collab := ref [7, 8, 9] 17 1, digest := 5 })).map
      (fun t => (t.collab, t.trace, t.digest)) = some (ref [7, 8, 9] 17 2, [.squeeze 8], 5) := by decide
/-- R68: SQ1 writes the lane to the second quarter. -/
theorem test_squeeze_quarter :
    let t := clockCycle quietPins { finishing .sq1 0 7 16 with collab := ref [7, 8, 9] 17 1, digest := 5 };
    (t.seq, t.trace, t.digest) = (.sq2, [.squeeze 8], 0x80000000000000005) := by decide
/-- R110: outside its permitted condition nothing is known of the reference collaborator. -/
theorem test_eighteenth_lane : (after (exec (.absorbLane 1) { State.reset with collab := ref [] 17 0 })).map
    (fun t => t.collab) = some .unknown := by decide

/-! ### Digest bytes (§2.6) -/

theorem test_digest_bytes : [0, 7, 8, 31].map (digestByte
    (assembleDigest 0x3C23F7860146D2C5 0xC003C7DCB27D7E92 0x3B2782CA53B600E5 0x70A4855D04D8FA7B)) =
    [0xc5, 0x3c, 0x92, 0x70] := by decide

/-! ### Reset (§2.8) and the sequencer (R92) -/

/-- Reset after the third event of A5: the events stay, the registers are at reset. -/
theorem test_reset_mid_command :
    view (.next (runCycles [offerPins 0x287, quietPins, quietPins, quietPins, { quietPins with rst := true }]
      (active 0x0086858483828180 7 16))) =
      some (0, 0, 0, .empty, [.absorbLane 0x8786858483828180, .advance, .advance]) := by decide
/-- §2.9: FINALIZE from `fill = 7, lanes = 16` visits LAST81, SQ0 to SQ3. -/
theorem test_special_case_cycles :
    ((List.range 6).map fun n => (runCycles (offerPins 0x300 :: List.replicate n quietPins)
      { active 0x0086858483828180 7 16 with collab := ref [4, 5, 6, 7] 17 1 }).seq) =
      [.last81, .sq0, .sq1, .sq2, .sq3, .idle] := by decide
/-- R92, R151: a stalled EMIT stays. -/
theorem test_stall : clockCycle { quietPins with spReady := false } { active 5 7 2 with seq := .emit } =
    { active 5 7 2 with seq := .emit } := by decide
/-- R72, R92, R151: a NEW whose INIT(1) is not taken has transferred; another command meanwhile is not. -/
theorem test_stalled_new :
    runCycles [{ offerPins 0x100 with spReady := false }, { offerPins 0x201 with spReady := false }, offerPins 0x300]
      State.reset =
    { active 0 0 0 with trace := [.init true], collab := ref [] 0 0 } := by decide
/-- R126: a command accepted in the cycle of a reset is discarded. -/
theorem test_reset_beats_command : clockCycle { offerPins 0x201 with rst := true } (active 5 1 2) = State.reset := by
  decide
theorem test_step_waits : (after (step { active 5 7 2 with seq := .emit, inputs := [.command 0x100] })).map
    (fun t => (t.seq, t.inputs)) = some (.idle, [.command 0x100]) := by decide
theorem test_codes : (phaseCode .done, causeCode .illegalOp, seqCode .sq3) = (2, 3, 14) := by decide

/-! ### Witnesses: for every statement with hypotheses, values that meet them -/

theorem witness_decodes : decode (.command 0x2C5) = .ok (.absorb 0xC5) ∧
    decode (.request 0x20000000000000000) = .ok .advance := ⟨rfl, rfl⟩
theorem witness_StepRunsCommand : let s : State := { State.reset with inputs := [.command 0x100] };
    s.inputs = .command 0x100 :: [] ∧ s.seq = .idle := ⟨rfl, rfl⟩
theorem witness_StepRunsRequest : let s := { State.reset with inputs := [.request 2, .request 1] };
    s.inputs = .request 2 :: [.request 1] ∧ decode (.request 2) = .error .initPayload ∧
      decode (.request 1) = .ok (.init true) := ⟨rfl, rfl, rfl⟩
theorem witness_StepTakesOtherInputs : State.reset.inputs = [] ∧
    (let s := { finishing .padz 0 0 0 with inputs := [.command 0x100] };
      s.inputs = .command 0x100 :: [] ∧ s.seq ≠ .idle) ∧
    (let s := { State.reset with inputs := [.clock quietPins] };
      s.inputs = .clock quietPins :: []) := by decide
theorem witness_PlacedWordRuns : decodeTableWord 16 0x3FF = some (.finalize 0xFF) ∧
    decodeTableWord 72 0x1FFFFFFFFFFFFFFFF = some (.absorbLane 0xFFFFFFFFFFFFFFFF) := by decide
theorem witness_AbsorbFollowsBytePath :
    ((active 0 6 16).phase = .active ∧ (active 0 6 16).fill ≠ 7) ∧
    ((active 0 7 15).phase = .active ∧ (active 0 7 15).fill = 7 ∧ (active 0 7 15).lanes ≠ 16) ∧
    ((active 0 7 16).phase = .active ∧ (active 0 7 16).fill = 7 ∧ (active 0 7 16).lanes = 16) ∧
    State.reset.phase ≠ .active ∧
    (∃ t, (active 0xFFFFFFFFFFFFFF 7 16).lanes.toNat < 17 ∧ upperBytesZero (active 0xFFFFFFFFFFFFFF 7 16) ∧
      exec (.absorb 0xFF) (active 0xFFFFFFFFFFFFFF 7 16) = .next t) :=
  ⟨by decide, by decide, by decide, by decide, _, by decide, by unfold upperBytesZero; decide, rfl⟩
theorem witness_BlockFlushPermutesReference :
    let c : Sponge := { S := zeroLanes, ai := 16, oi := 0 };
    let s := { active 5 7 16 with collab := .reference c }
    s.phase = .active ∧ s.fill = 7 ∧ s.lanes = 16 ∧ s.collab = .reference c ∧ c.ai = 16 ∧ c.oi = 0 := by decide
theorem witness_FinalizeCompletes :
    ((active 0xFFFFFFFFFFFFFF 7 16).phase = .active ∧ (active 0xFFFFFFFFFFFFFF 7 16).lanes.toNat < 17 ∧
      upperBytesZero (active 0xFFFFFFFFFFFFFF 7 16)) ∧
    ((active 0 0 0).phase = .active ∧ (active 0 0 0).lanes.toNat < 17 ∧ upperBytesZero (active 0 0 0)) ∧
    (finished 1).phase ≠ .active := by
  unfold upperBytesZero; decide
theorem witness_FinalizeSqueezesReference :
    let c : Sponge := { S := zeroLanes, ai := 16, oi := 0 };
    let s := { active 5 6 16 with collab := .reference c }
    ∃ K, s.phase = .active ∧ s.lanes.toNat < 17 ∧ upperBytesZero s ∧ s.collab = .reference c ∧
      c.ai = s.lanes.toNat ∧ c.oi = 0 ∧
      K = keccakF (xorFrom c.S s.lanes.toNat (finalLanes s.acc s.fill s.lanes)) :=
  ⟨_, rfl, by decide, by unfold upperBytesZero; decide, rfl, rfl, rfl, rfl⟩
theorem witness_CommandsWriteTheirRegistersOnly :
    (∃ t, exec (.new 0) State.reset = .next t) ∧
    (∃ t, exec (.absorb 1) (active 0 7 16) = .next t ∧ (active 0 7 16).phase = .active) ∧
    (∃ t, exec (.finalize 0) (active 0 7 16) = .next t ∧ (active 0 7 16).phase = .active) ∧
    (∃ t, exec (.absorb 1) State.reset = .next t ∧ State.reset.phase ≠ .active) ∧
    (∃ t, exec (.finalize 0) (finished 1) = .next t ∧ (finished 1).phase ≠ .active) ∧
    (∃ t, exec (.reserved 0) State.reset = .next t) :=
  ⟨⟨_, rfl⟩, ⟨_, rfl, rfl⟩, ⟨_, rfl, rfl⟩, ⟨_, rfl, by decide⟩, ⟨_, rfl, by decide⟩, ⟨_, rfl⟩⟩
theorem witness_LifecycleTable : misuse (.absorb 0) .empty = some .absorbNotActive ∧
    misuse (.finalize 0) .done = some .finalizeNotActive ∧ misuse (.reserved 0) .active = some .illegalOp ∧
    misuse (.new 0) .done = none ∧ misuse (.absorb 0) .active = none := by decide
theorem witness_ReferenceInit : ({ State.reset with collab := ref [1] 17 4 } : State).collab = ref [1] 17 4 := rfl
theorem witness_ReferenceAbsorbLane :
    let c : Sponge := { S := zeroLanes, ai := 16, oi := 0 };
    ({ State.reset with collab := .reference c } : State).collab = .reference c ∧ c.ai < 17 ∧ c.oi = 0 := by decide
theorem witness_ReferenceOutputStep :
    let c : Sponge := { S := zeroLanes, ai := 17, oi := 3 };
    ∃ K z, ({ State.reset with collab := .reference c } : State).collab = .reference c ∧ c.ai = 17 ∧ c.oi < 4 ∧
      K = (if c.oi = 0 then keccakF c.S else c.S) ∧ K[c.oi]? = some z :=
  ⟨zeroLanes, 0, by decide⟩
theorem witness_FourAdvancesPermuteOnce :
    let c : Sponge := { S := zeroLanes, ai := 17, oi := 0 };
    ({ State.reset with collab := .reference c } : State).collab = .reference c ∧ c.ai = 17 ∧ c.oi = 0 :=
  ⟨rfl, rfl, rfl⟩
theorem witness_FourSqueezesReturnTheLanes :
    let c : Sponge := { S := zeroLanes, ai := 17, oi := 0 };
    ∃ K, ({ State.reset with collab := .reference c } : State).collab = .reference c ∧ c.ai = 17 ∧ c.oi = 0 ∧
      K = keccakF c.S := ⟨_, rfl, rfl, rfl, rfl⟩
theorem witness_SqueezeWritesItsQuarter : (∀ j, (finishing (squeezeState j) 0 7 16).seq = squeezeState j) ∧
    quietPins.rst = false ∧ quietPins.spReady = true := ⟨fun _ => rfl, rfl, rfl⟩
theorem witness_UnknownAnswersAreFree : ({ State.reset with collab := .external } : State).collab = .external ∧
    State.reset.collab = .unknown := ⟨rfl, rfl⟩
theorem witness_CollaboratorReachesDigestOnly : ∃ t, exec (.new 0) State.reset = .next t ∧
    (∀ d, Instr.new 0 ≠ .finalize d) := ⟨_, rfl, by simp⟩
theorem witness_OnlyCommandsAndResetWriteRegisters :
    (let s := { finishing .sq1 0 7 16 with inputs := [.request 0x30000000000000000] };
      ∃ t, step s = .next t ∧ s.inputs = .request 0x30000000000000000 :: []) ∧
    (let s := { State.reset with inputs := [.clock quietPins] };
      ∃ t, step s = .next t ∧ s.inputs = .clock quietPins :: [] ∧ s.seq = .idle ∧ quietPins.rst = false ∧
        quietPins.cmdValid = false) := ⟨⟨_, rfl, rfl⟩, ⟨_, rfl, rfl, rfl, rfl, rfl⟩⟩
theorem witness_ErrorIsSticky :
    let s := { finished 1 with err := true, errCause := .illegalOp, inputs := [.command 0x100] };
    ∃ t, step s = .next t ∧ s.err = true ∧ ¬ resetRequested s := ⟨_, rfl, rfl, by simp [resetRequested]⟩
theorem witness_ErrorsDoNotInterfere : ∃ t, exec (.finalize 0) (active 0 7 16) = .next t := ⟨_, rfl⟩
theorem witness_OnlyResetReachesEmpty : ∃ t, step State.reset = .next t ∧ ¬ resetRequested State.reset ∧
    t.phase = .empty ∧ t.err = false := ⟨_, rfl, by simp [resetRequested, State.reset], rfl, rfl⟩
theorem witness_ResetTakesEffect :
    ({ active 5 1 2 with inputs := [.reset] } : State).inputs = .reset :: [] ∧
    ({ active 5 1 2 with inputs := [.clock { offerPins 0x201 with rst := true }] } : State).inputs =
      .clock { offerPins 0x201 with rst := true } :: [] := ⟨rfl, rfl⟩
theorem witness_DerivedOutputs : ∃ t, exec (.absorb 1) (active 0 0 0) = .next t := ⟨_, rfl⟩

/-- A finished digest is a state the block's invariant holds of. -/
theorem finished_inv (d : Digest) : BlockInv (finished d) := by
  simp [BlockInv, registersFit, upperBytesZero, finished, State.reset]

theorem witness_ValidDigestIsStable : let s := { finished 9 with inputs := [.command 0x300] };
    ∃ t, BlockInv s ∧ digestReadable s ∧ step s = .next t ∧ ¬ resetRequested s :=
  ⟨_, finished_inv 9, by simp [digestReadable, digestValid, finished], rfl, by simp [resetRequested]⟩
theorem witness_placement : (0x00FFFFFFFFFFFFFF : Lane) >>> (8 * (7 : BitVec 3).toNat) = 0 ∧
    (0 : Lane) >>> (8 * (0 : BitVec 3).toNat) = 0 ∧ (0x00FFFFFFFFFFFFFF : Lane) >>> 56 = 0 ∧
    (∃ k, k < (7 : BitVec 3).toNat) ∧ (∃ k, (0 : BitVec 3).toNat < k) := by
  refine ⟨by decide, by decide, by decide, ⟨6, by decide⟩, ⟨1, by decide⟩⟩
theorem witness_BytesToPadRange : (0 : BitVec 5).toNat < 17 ∧ (16 : BitVec 5).toNat < 17 ∧ bytesToPad 7 16 = 1 ∧
    bytesToPad 0 0 = 136 := by decide
theorem witness_PaddingStopsAtByte135 : ∃ t, (active 0 6 16).lanes.toNat < 17 ∧ upperBytesZero (active 0 6 16) ∧
    bytesToPad (active 0 6 16).fill (active 0 6 16).lanes ≠ 1 ∧
    t = injectZeros (bytesToPad (active 0 6 16).fill (active 0 6 16).lanes - 2).toNat
      (injectByte 0x01 (active 0 6 16)) :=
  ⟨_, by decide, by unfold upperBytesZero; decide, by decide, rfl⟩
theorem witness_DigestByteOrder : 0 < 8 ∧ 7 < 8 := by decide

theorem reset_blockInv : BlockInv State.reset := by
  simp [BlockInv, registersFit, upperBytesZero, State.reset]

theorem witness_StepKeepsBlockInv : ∃ t, BlockInv State.reset ∧ step State.reset = .next t :=
  ⟨_, reset_blockInv, rfl⟩

/-- A block in the middle of a digest, its collaborator in step with it, and a command presented. -/
def midDigest : State :=
  { active 0x30201 3 2 with
    collab := ref [] 2 0, trace := [.init true, .absorbLane 0, .absorbLane 0], inputs := [.command 0x3A5] }

theorem midDigest_blockInv : BlockInv midDigest := by
  simp [BlockInv, registersFit, upperBytesZero, midDigest, active, State.reset]

theorem witness_StepKeepsLink : ∃ t, BlockInv midDigest ∧ LinkInv midDigest ∧ portIsOurs midDigest ∧
    step midDigest = .next t :=
  ⟨_, midDigest_blockInv, ⟨⟨rfl, rfl⟩, fun _ => ⟨0, rfl, by decide⟩⟩, by simp [portIsOurs, midDigest], rfl⟩
theorem witness_StepKeepsDiscipline : ∃ t, BlockInv midDigest ∧ DisciplineInv midDigest ∧ portIsOurs midDigest ∧
    step midDigest = .next t :=
  ⟨_, midDigest_blockInv, ⟨.block 2, rfl, by simp [expectedStage, midDigest, active, State.reset]⟩,
    by simp [portIsOurs, midDigest], rfl⟩
theorem witness_CyclesRefineCommands : ∃ t, BlockInv midDigest ∧ midDigest.seq = .idle ∧
    exec (decodeCommand 0x3A5) midDigest = .next t := ⟨_, midDigest_blockInv, rfl, rfl⟩
theorem witness_ResetCutsCommandBetweenEvents :
    let p := { offerPins 0x3A5 with spReady := false };
    let ps := [quietPins, { quietPins with spReady := false }];
    let q := { quietPins with rst := true };
    ∃ t r, BlockInv midDigest ∧ midDigest.seq = .idle ∧ exec (decodeCommand 0x3A5) midDigest = .next t ∧
      p.rst = false ∧ p.cmdValid = true ∧ p.cmd = 0x3A5 ∧ (∀ p' ∈ ps, p'.rst = false ∧ p'.cmdValid = false) ∧
      q.rst = true ∧ r = runCycles (p :: (ps ++ [q])) midDigest :=
  ⟨_, _, midDigest_blockInv, rfl, rfl, rfl, rfl, rfl, by decide, rfl, rfl⟩
theorem witness_StallsOnlyDelayCommands :
    let p := { offerPins 0x100 with spReady := false };
    let ps := { quietPins with spReady := false } :: List.replicate 157 quietPins;
    ∃ t, BlockInv midDigest ∧ midDigest.seq = .idle ∧ exec (decodeCommand 0x100) midDigest = .next t ∧
      p.rst = false ∧ p.cmdValid = true ∧ p.cmd = 0x100 ∧ (∀ p' ∈ ps, p'.rst = false ∧ p'.cmdValid = false) ∧
      157 ≤ (ps.filter (fun p' => p'.spReady)).length :=
  ⟨_, midDigest_blockInv, rfl, rfl, rfl, rfl, rfl, by simp [quietPins], by simp [quietPins]⟩
theorem witness_BusyBlockIgnoresCommandPort : (finishing .sq3 0 7 16).seq ≠ .idle ∧
    quietPins.rst = (offerPins 0x100).rst ∧ quietPins.spReady = (offerPins 0x100).spReady := by decide
theorem witness_StalledBlockWaits :
    (let s := { active 5 7 2 with seq := .emit };
      let p := { quietPins with spReady := false };
      spValid p s = true ∧ p.spReady = false ∧ s.seq ≠ .idle) ∧
    (let p := { offerPins 0x1A7 with spReady := false };
      spValid p State.reset = true ∧ p.spReady = false ∧ State.reset.seq = .idle) := by decide
theorem witness_WaitingCommandIsReached :
    let s := { finishing .pad1 0 0 0 with inputs := [.command 0x100] };
    BlockInv s ∧ s.inputs = .command 0x100 :: [] := by
  simp [BlockInv, registersFit, upperBytesZero, finishing, active, State.reset]
theorem witness_whole_digest : let s := { finished 3 with inputs := keccak256Inputs [0xC5] ++ [Input.reset] };
    s.seq = .idle ∧ s.collab ≠ .external ∧ s.inputs = keccak256Inputs [0xC5] ++ [Input.reset] := by
  decide

end Sys2Proof.Tests
end

section
/-!
PROOF. A message as lanes: the little-endian value of a byte sequence (R19), the whole lanes of one (R86), and the lanes
that FINALIZE's padding completes it with (R84, R86).
-/

namespace Sys2Proof.WholeDigest

open Sys2Proof.Machine Sys2Proof.Safety

/-! ### Little-endian values (R19) -/

theorem le64_append (a b : List Byte) : le64 (a ++ b) = le64 a ||| (le64 b <<< (8 * a.length)) := by
  induction a with
  | nil => simp [le64]
  | cons x a ih =>
    rw [List.cons_append, le64, ih, le64, BitVec.shiftLeft_or_distrib, ← BitVec.shiftLeft_add, BitVec.or_assoc,
      List.length_cons, Nat.mul_succ]

@[simp] theorem le64_nil : le64 [] = 0 := rfl

@[simp] theorem le64_singleton (b : Byte) : le64 [b] = b.setWidth 64 := by simp [le64]

@[simp] theorem le64_zeros (n : Nat) : le64 (List.replicate n 0) = 0 := by
  induction n with
  | zero => rfl
  | succ n ih => rw [List.replicate_succ, le64, ih]; rfl

/-- The byte path builds the little-endian value of the bytes it is given (R82). -/
theorem placeByte_le64 (part : List Byte) (f : BitVec 3) (b : Byte) (h : f.toNat = part.length) :
    placeByte (le64 part) f b = le64 (part ++ [b]) := by
  rw [placeByte, le64_append, le64_singleton, h]

theorem le64_lt (bs : List Byte) : (le64 bs).toNat < 2 ^ (8 * bs.length) := by
  induction bs with
  | nil => simp
  | cons b bs ih =>
    have hlow : (b.setWidth 64).toNat < 2 ^ (8 * (bs.length + 1)) :=
      calc (b.setWidth 64).toNat ≤ b.toNat := by rw [BitVec.toNat_setWidth]; exact Nat.mod_le _ _
        _ < 2 ^ 8 := b.isLt
        _ ≤ 2 ^ (8 * (bs.length + 1)) := Nat.pow_le_pow_right (by omega) (by omega)
    have hhigh : (le64 bs <<< 8).toNat < 2 ^ (8 * (bs.length + 1)) :=
      calc (le64 bs <<< 8).toNat ≤ (le64 bs).toNat * 2 ^ 8 := by
            rw [BitVec.toNat_shiftLeft, Nat.shiftLeft_eq]; exact Nat.mod_le _ _
        _ < 2 ^ (8 * bs.length) * 2 ^ 8 := Nat.mul_lt_mul_of_pos_right ih (by positivity)
        _ = 2 ^ (8 * (bs.length + 1)) := by rw [← pow_add, Nat.mul_succ]
    rw [le64, BitVec.toNat_or]
    exact Nat.or_lt_two_pow hlow hhigh

/-! ### The whole lanes of a byte sequence (R86) -/

/-- The whole lanes of a byte sequence, in order; up to seven bytes at its end are left out. -/
def lanesOf (bs : List Byte) : List Lane := (List.range (bs.length / 8)).map (laneOfBytes bs 0)

/-- Lane `k` of block `j` is lane `17*j + k` of the sequence. -/
theorem laneOfBytes_block (bs : List Byte) (j k : Nat) : laneOfBytes bs j k = laneOfBytes bs 0 (17 * j + k) := by
  rw [laneOfBytes, laneOfBytes, show 136 * j + 8 * k = 136 * 0 + 8 * (17 * j + k) by ring]

theorem laneOfBytes_append_left (a b : List Byte) {k : Nat} (h : 8 * k + 8 ≤ a.length) :
    laneOfBytes (a ++ b) 0 k = laneOfBytes a 0 k := by
  rw [laneOfBytes, laneOfBytes, List.drop_append_of_le_length (by omega),
    List.take_append_of_le_length (by rw [List.length_drop]; omega)]

theorem laneOfBytes_append_right (a b : List Byte) {n : Nat} (k : Nat) (h : a.length = 8 * n) :
    laneOfBytes (a ++ b) 0 (n + k) = laneOfBytes b 0 k := by
  rw [laneOfBytes, laneOfBytes, show 136 * 0 + 8 * (n + k) = a.length + (136 * 0 + 8 * k) by omega,
    List.drop_length_add_append]

@[simp] theorem length_lanesOf (bs : List Byte) : (lanesOf bs).length = bs.length / 8 := by simp [lanesOf]

theorem lanesOf_append {a : List Byte} {n : Nat} (h : a.length = 8 * n) (b : List Byte) :
    lanesOf (a ++ b) = lanesOf a ++ lanesOf b := by
  have hn : a.length / 8 = n := by omega
  rw [lanesOf, lanesOf, lanesOf, List.length_append, show (a.length + b.length) / 8 = n + b.length / 8 by omega, hn,
    List.range_add, List.map_append, List.map_map]
  congr 1
  · refine List.map_congr_left fun k hk => laneOfBytes_append_left a b ?_
    have := List.mem_range.1 hk
    omega
  · exact List.map_congr_left fun k _ => laneOfBytes_append_right a b k h

/-- Eight bytes are one lane. -/
theorem lanesOf_lane {bs : List Byte} (h : bs.length = 8) : lanesOf bs = [le64 bs] := by
  simp [lanesOf, laneOfBytes, h, List.take_of_length_le]

theorem lanesOf_zeros (n : Nat) : lanesOf (List.replicate (8 * n) 0) = List.replicate n 0 := by
  rw [lanesOf, List.eq_replicate_iff]
  refine ⟨by simp, fun l hl => ?_⟩
  obtain ⟨k, -, rfl⟩ := List.mem_map.1 hl
  rw [laneOfBytes, List.drop_replicate, List.take_replicate, le64_zeros]

/-- The 17 lanes of a block, as a piece of the sequence's lanes. -/
theorem lanesOf_block (bs : List Byte) {j : Nat} (h : 136 * (j + 1) ≤ bs.length) :
    ((lanesOf bs).drop (17 * j)).take 17 = blockLanes bs j := by
  apply List.ext_getElem
  · simp [blockLanes]; omega
  · intro k _ _
    simp [lanesOf, blockLanes, laneOfBytes_block bs j k]

/-- R106's chain of states by the lanes received is its chain by the blocks of the bytes. -/
theorem stateAfterBlocks_lanesOf (bs : List Byte) (n : Nat) (h : 136 * n ≤ bs.length) :
    stateAfterBlocks (lanesOf bs) n = absorbBlocks bs n := by
  induction n with
  | zero => rfl
  | succ n ih => rw [stateAfterBlocks, absorbBlocks, ih (by omega), lanesOf_block bs h]

/-! ### The padding as lanes (R84, R86) -/

theorem length_padding (L : Nat) : (padding L).length = 136 - L % 136 := by
  by_cases h : L % 136 = 135
  · simp [padding, h]
  · simp [padding, h]; omega

/-- The padded message is whole blocks (R86). -/
theorem length_paddedMessage (m : List Byte) : (paddedMessage m).length = 136 * (m.length / 136 + 1) := by
  rw [paddedMessage, List.length_append, length_padding]
  omega

theorem finalLanes_oneByte (acc : Lane) : finalLanes acc 7 16 = [acc ||| 0x8100000000000000] := rfl

theorem finalLanes_lastLane (acc : Lane) {fill : BitVec 3} (h : fill ≠ 7) :
    finalLanes acc fill 16 = [acc ||| ((0x01 : Lane) <<< (8 * fill.toNat)) ||| 0x8000000000000000] := by
  rw [finalLanes, if_neg (fun e => h e.1)]
  exact if_pos rfl

theorem finalLanes_earlierLane (acc : Lane) (fill : BitVec 3) {lanes : BitVec 5} (h : lanes ≠ 16) :
    finalLanes acc fill lanes = (acc ||| ((0x01 : Lane) <<< (8 * fill.toNat))) ::
      List.replicate (15 - lanes.toNat) 0 ++ [0x8000000000000000] := by
  rw [finalLanes, if_neg (fun e => h e.2)]
  exact if_neg h

/-- FINALIZE's lanes fill the block. -/
theorem length_finalLanes (acc : Lane) (fill : BitVec 3) (lanes : BitVec 5) (h : lanes.toNat < 17) :
    (finalLanes acc fill lanes).length = 17 - lanes.toNat := by
  by_cases h16 : lanes = 16
  · subst h16
    by_cases h7 : fill = 7
    · subst h7; rfl
    · rw [finalLanes_lastLane acc h7]; rfl
  · have := lanes_lt_of_ne h h16
    rw [finalLanes_earlierLane acc fill h16]
    simp
    omega

/-- The lane in which the bytes of an unfinished lane stand before a `0x01` and zeros. -/
theorem le64_startPad (part : List Byte) (n : Nat) :
    le64 (part ++ 0x01 :: List.replicate n 0) = le64 part ||| ((0x01 : Lane) <<< (8 * part.length)) := by
  rw [le64_append, le64, le64_zeros]
  simp

/-- The lanes FINALIZE issues are those of the unfinished lane's bytes followed by the padding. -/
theorem finalLanes_le64 (part : List Byte) (f : BitVec 3) (n : BitVec 5) (L : Nat) (hf : f.toNat = part.length)
    (hn : n.toNat < 17) (hL : L % 136 = 8 * n.toNat + part.length) :
    finalLanes (le64 part) f n = lanesOf (part ++ padding L) := by
  have hlt := f.isLt
  by_cases h16 : n = 16
  · have e16 : n.toNat = 16 := by rw [h16]; rfl
    have hlen : (part ++ padding L).length = 8 := by rw [List.length_append, length_padding]; omega
    rw [lanesOf_lane hlen, h16]
    by_cases h7 : f = 7
    · have e7 : part.length = 7 := by rw [← hf, h7]; rfl
      have hp : padding L = [0x81] := if_pos (by omega)
      rw [h7, finalLanes_oneByte, hp, le64_append, e7]
      rfl
    · have l7 := fill_lt_seven h7
      have hp : part ++ padding L = (part ++ 0x01 :: List.replicate (6 - part.length) 0) ++ [0x80] := by
        rw [padding, if_neg (by omega), show 134 - L % 136 = 6 - part.length by omega]
        simp
      have hseven : (part ++ 0x01 :: List.replicate (6 - part.length) 0).length = 7 := by simp; omega
      rw [finalLanes_lastLane _ h7, hp, le64_append, le64_startPad, hf, hseven]
      rfl
  · have l16 := lanes_lt_of_ne hn h16
    have hp : part ++ padding L = (part ++ 0x01 :: List.replicate (7 - part.length) 0) ++
        (List.replicate (8 * (15 - n.toNat)) 0 ++ (List.replicate 7 0 ++ [0x80])) := by
      rw [padding, if_neg (by omega),
        show 134 - L % 136 = (7 - part.length) + (8 * (15 - n.toNat) + 7) by omega, List.replicate_add,
        List.replicate_add]
      simp
    have hfirst : (part ++ 0x01 :: List.replicate (7 - part.length) 0).length = 8 := by simp; omega
    have hzeros : (List.replicate (8 * (15 - n.toNat)) (0 : Byte)).length = 8 * (15 - n.toNat) := by simp
    rw [finalLanes_earlierLane _ _ h16, hp, lanesOf_append (n := 1) hfirst, lanesOf_append hzeros, lanesOf_lane hfirst,
      lanesOf_zeros, le64_startPad, hf]
    rfl

end Sys2Proof.WholeDigest
end

section
/-!
PROOF. A whole digest (R89): the block's position in the message (R25, R26), the reference collaborator in step with the
lanes it is sent (R82, R84, R106, R115), the digest that FINALIZE leaves, and the run of the driver's commands.
-/

namespace Sys2Proof.WholeDigest

open Sys2Proof.Machine Sys2Proof.Safety

/-! ### The reference collaborator in step with the trace (R115) -/

/-- The collaborator is the reference one at these positions, and its state is the one the lanes of the trace give. -/
def Linked (ai oi : Nat) (s : State) : Prop :=
  ∃ S, s.collab = .reference { S := S, ai := ai, oi := oi } ∧ stateFits s.trace { S := S, ai := ai, oi := oi }

theorem spInit_fresh_linked {s : State} (h : s.collab ≠ .external) : Linked 0 0 (spInit true s) :=
  ⟨zeroLanes, collabInit_fresh _ h, stateFits_init _⟩

theorem spInit_again_linked {ai oi : Nat} {s : State} (h : Linked ai oi s) (ho : oi ≠ 0) :
    Linked 0 0 (spInit false s) := by
  obtain ⟨S, hc, hS⟩ := h
  exact ⟨S, by rw [spInit_collab, hc]; rfl, stateFits_reinit hS ho⟩

theorem spAbsorbLane_linked {ai : Nat} {s : State} (h : Linked ai 0 s) (l : Lane) (ha : ai < 17) :
    Linked (ai + 1) 0 (spAbsorbLane l s) := by
  obtain ⟨S, hc, hS⟩ := h
  exact ⟨_, by rw [spAbsorbLane_collab, hc, collabAbsorb_permitted l _ ⟨ha, rfl⟩]; rfl,
    stateFits_absorb hS l ⟨ha, rfl⟩⟩

theorem spAdvance_linked {oi : Nat} {s : State} (h : Linked 17 oi s) (ho : oi < 4) :
    Linked 17 (oi + 1) (spAdvance s) := by
  obtain ⟨S, hc, hS⟩ := h
  exact ⟨_, by rw [spAdvance_collab, hc, collabOutput_permitted _ _ ⟨rfl, ho⟩]; rfl,
    stateFits_output hS .advance (by simp) ⟨rfl, ho⟩⟩

theorem absorbLanes_linked (ls : List Lane) {ai : Nat} {s : State} (h : Linked ai 0 s) (ha : ai + ls.length ≤ 17) :
    Linked (ai + ls.length) 0 (absorbLanes ls s) := by
  induction ls generalizing ai s with
  | nil => exact h
  | cons l ls ih =>
    rw [List.length_cons] at ha ⊢
    rw [absorbLanes_cons, show ai + (ls.length + 1) = ai + 1 + ls.length by omega]
    exact ih (spAbsorbLane_linked h l (by omega)) (by omega)

/-- A block transition after the 17th lane: the collaborator stands ready for the next block (R82, R103). -/
theorem blockTransition_linked {s : State} (h : Linked 17 0 s) : Linked 0 0 (blockTransition s) := by
  have h1 := spAdvance_linked h (by decide)
  have h2 := spAdvance_linked h1 (by decide)
  have h3 := spAdvance_linked h2 (by decide)
  have h4 := spAdvance_linked h3 (by decide)
  exact spInit_again_linked h4 (by decide)

/-- The byte path keeps the collaborator's `ai` at the block's `lanes` (R115). -/
theorem injectByte_linked (b : Byte) {s : State} (hl : s.lanes.toNat < 17) (h : Linked s.lanes.toNat 0 s) :
    Linked (injectByte b s).lanes.toNat 0 (injectByte b s) := by
  by_cases h7 : s.fill = 7
  · have hlane := spAbsorbLane_linked h (placeByte s.acc 7 b) hl
    by_cases h16 : s.lanes = 16
    · rw [injectByte_block b s h7 h16]
      rw [h16] at hlane
      exact blockTransition_linked hlane
    · rw [injectByte_lane b s h7 h16]
      simp only [lanes_succ _ (lanes_lt_of_ne hl h16)]
      exact hlane
  · rw [injectByte_place b s h7]
    exact h

/-- FINALIZE's padding completes the block at the collaborator. -/
theorem padBlock_linked {s : State} (hl : s.lanes.toNat < 17) (hz : upperBytesZero s) (h : Linked s.lanes.toNat 0 s) :
    Linked 17 0 (padBlock s) := by
  have hlen := length_finalLanes s.acc s.fill s.lanes hl
  have habs := absorbLanes_linked (finalLanes s.acc s.fill s.lanes) h (by omega)
  rw [show s.lanes.toNat + (finalLanes s.acc s.fill s.lanes).length = 17 by omega] at habs
  obtain ⟨a, ha⟩ := padBlock_eq s hl hz
  rw [ha]
  exact habs

/-! ### The position in the message (R25, R26) -/

@[simp] theorem lanesReceived_blockTransition (s : State) :
    lanesReceived (blockTransition s).trace = lanesReceived s.trace := by
  simp only [blockTransition, spInit_trace, spAdvance_trace, lanesReceived_reinit, lanesReceived_advance]

@[simp] theorem lanesReceived_absorbLanes (ls : List Lane) (s : State) :
    lanesReceived (absorbLanes ls s).trace = lanesReceived s.trace ++ ls := by
  induction ls generalizing s with
  | nil => simp
  | cons l ls ih => rw [absorbLanes_cons, ih]; simp

/-- Where a block stands after NEW and the bytes `whole ++ part`: the bytes `whole` have left it as lanes, and `part` is in
`acc`. -/
structure Position (whole part : List Byte) (s : State) : Prop where
  active : s.phase = .active
  aligned : whole.length % 8 = 0
  lanes : s.lanes.toNat = whole.length % 136 / 8
  fill : s.fill.toNat = part.length
  acc : s.acc = le64 part
  received : lanesReceived s.trace = lanesOf whole

theorem Position.lanes_lt {whole part : List Byte} {s : State} (h : Position whole part s) : s.lanes.toNat < 17 := by
  rw [h.lanes]
  omega

theorem Position.upperBytesZero {whole part : List Byte} {s : State} (h : Position whole part s) :
    upperBytesZero s := by
  rw [Safety.upperBytesZero, shift_eq_zero_iff, h.fill, h.acc]
  exact le64_lt part

/-- NEW puts the block before the first byte. -/
theorem startDigest_position (s : State) : Position [] [] (startDigest s) where
  active := rfl
  aligned := rfl
  lanes := rfl
  fill := rfl
  acc := rfl
  received := lanesReceived_init _

/-- A lane completed by the byte `b` joins the lanes received. -/
theorem Position.received_lane {whole part : List Byte} {s : State} (h : Position whole part s) (h7 : s.fill = 7)
    (b : Byte) : lanesReceived (spAbsorbLane (placeByte s.acc 7 b) s).trace = lanesOf (whole ++ (part ++ [b])) := by
  have hpart : part.length = 7 := by rw [← h.fill, h7]; rfl
  have haligned := h.aligned
  rw [spAbsorbLane_trace, lanesReceived_absorbLane, h.received, h.acc, placeByte_le64 part 7 b hpart.symm,
    lanesOf_append (n := whole.length / 8) (by omega),
    lanesOf_lane (bs := part ++ [b]) (by simp [hpart])]

/-- The byte path moves the block by one byte. -/
theorem injectByte_position (b : Byte) {whole part : List Byte} {s : State} (h : Position whole part s) :
    ∃ whole' part', whole' ++ part' = whole ++ part ++ [b] ∧ Position whole' part' (injectByte b s) := by
  have hactive : (injectByte b s).phase = .active := (injectByte_frame b s).1.trans h.active
  have haligned := h.aligned
  have hlanes := h.lanes
  by_cases h7 : s.fill = 7
  · have hpart : part.length = 7 := by rw [← h.fill, h7]; rfl
    have hlen : (whole ++ (part ++ [b])).length = whole.length + 8 := by simp [hpart]
    have hlane := h.received_lane h7 b
    refine ⟨whole ++ (part ++ [b]), [], by simp, ?_⟩
    by_cases h16 : s.lanes = 16
    · have e16 : s.lanes.toNat = 16 := by rw [h16]; rfl
      have e := injectByte_block b s h7 h16
      exact {
        active := hactive
        aligned := by omega
        lanes := by rw [e, hlen, show (whole.length + 8) % 136 / 8 = 0 by omega]; rfl
        fill := by rw [e]; rfl
        acc := by rw [e]; rfl
        received := by rw [e, ← hlane]; exact lanesReceived_blockTransition _ }
    · have l16 := lanes_lt_of_ne h.lanes_lt h16
      have e := injectByte_lane b s h7 h16
      exact {
        active := hactive
        aligned := by omega
        lanes := by simp only [e, lanes_succ _ l16]; omega
        fill := by rw [e]; rfl
        acc := by rw [e]; rfl
        received := by rw [e]; exact hlane }
  · have e := injectByte_place b s h7
    exact ⟨whole, part ++ [b], by simp, {
      active := hactive
      aligned := haligned
      lanes := by rw [e]; exact hlanes
      fill := by simp only [e, fill_succ _ h7, h.fill, List.length_append, List.length_singleton]
      acc := by simp only [e, h.acc, placeByte_le64 part s.fill b h.fill]
      received := by rw [e]; exact h.received }⟩

/-! ### The bytes of a message -/

/-- The bytes of a message through the byte path, one after the other. -/
def injectBytes (m : List Byte) (s : State) : State := m.foldl (fun t b => injectByte b t) s

@[simp] theorem injectBytes_nil (s : State) : injectBytes [] s = s := rfl

@[simp] theorem injectBytes_cons (b : Byte) (m : List Byte) (s : State) :
    injectBytes (b :: m) s = injectBytes m (injectByte b s) := rfl

theorem injectBytes_position (m : List Byte) {whole part : List Byte} {s : State} (h : Position whole part s) :
    ∃ whole' part', whole' ++ part' = whole ++ part ++ m ∧ Position whole' part' (injectBytes m s) := by
  induction m generalizing whole part s with
  | nil => exact ⟨whole, part, by simp, h⟩
  | cons b m ih =>
    obtain ⟨whole₁, part₁, e₁, h₁⟩ := injectByte_position b h
    obtain ⟨whole₂, part₂, e₂, h₂⟩ := ih h₁
    exact ⟨whole₂, part₂, by rw [e₂, e₁]; simp, h₂⟩

theorem injectBytes_linked (m : List Byte) {whole part : List Byte} {s : State} (hp : Position whole part s)
    (h : Linked s.lanes.toNat 0 s) : Linked (injectBytes m s).lanes.toNat 0 (injectBytes m s) := by
  induction m generalizing whole part s with
  | nil => exact h
  | cons b m ih =>
    obtain ⟨_, _, -, hp'⟩ := injectByte_position b hp
    exact ih hp' (injectByte_linked b hp.lanes_lt h)

/-- After FINALIZE's padding the lanes received are those of the padded message (R86). -/
theorem padBlock_received {whole part : List Byte} {s : State} (h : Position whole part s) :
    lanesReceived (padBlock s).trace = lanesOf (paddedMessage (whole ++ part)) := by
  have haligned := h.aligned
  have hpart : part.length < 8 := by rw [← h.fill]; exact s.fill.isLt
  have hlanes := h.lanes
  have hL : (whole ++ part).length % 136 = 8 * s.lanes.toNat + part.length := by rw [List.length_append]; omega
  obtain ⟨a, ha⟩ := padBlock_eq s h.lanes_lt h.upperBytesZero
  calc lanesReceived (padBlock s).trace
      = lanesReceived s.trace ++ finalLanes s.acc s.fill s.lanes := by rw [ha]; exact lanesReceived_absorbLanes _ s
    _ = lanesOf whole ++ lanesOf (part ++ padding (whole ++ part).length) := by
        rw [h.received, h.acc, finalLanes_le64 part s.fill s.lanes _ h.fill h.lanes_lt hL]
    _ = lanesOf (paddedMessage (whole ++ part)) := by
        rw [← lanesOf_append (n := whole.length / 8) (by omega), paddedMessage, List.append_assoc]

/-! ### The digest -/

/-- The first output step after the 17th lane permutes the state and returns its lane 0 (R111). -/
theorem spSqueeze_first {s : State} {S : LaneArray} (h : s.collab = .reference { S := S, ai := 17, oi := 0 }) :
    squeezed s = (keccakF S)[0] ∧ (spSqueeze s).collab = .reference { S := keccakF S, ai := 17, oi := 1 } := by
  rw [spSqueeze_collab, squeezed, h, collabOutput_permitted _ _ ⟨rfl, Nat.zero_lt_succ 3⟩]
  simp [spongeOutput, spongePermuted]

/-- A later output step returns the next lane of the state and leaves it (R111). -/
theorem spSqueeze_later {s : State} {S : LaneArray} {j : Nat} (hj : j < 4)
    (h : s.collab = .reference { S := S, ai := 17, oi := j }) (h0 : j ≠ 0) :
    squeezed s = S[j] ∧ (spSqueeze s).collab = .reference { S := S, ai := 17, oi := j + 1 } := by
  rw [spSqueeze_collab, squeezed, h, collabOutput_permitted _ _ ⟨rfl, hj⟩]
  simp [spongeOutput, spongePermuted, h0]

/-- FINALIZE's digest is lanes 0 to 3 of the permuted state (R106, R111). -/
theorem squeezeDigest_reference {s : State} {S : LaneArray} (h : s.collab = .reference { S := S, ai := 17, oi := 0 }) :
    (squeezeDigest s).digest =
      assembleDigest (keccakF S)[0] (keccakF S)[1] (keccakF S)[2] (keccakF S)[3] := by
  obtain ⟨z0, h1⟩ := spSqueeze_first h
  obtain ⟨z1, h2⟩ := spSqueeze_later (by decide) h1 (by decide)
  obtain ⟨z2, h3⟩ := spSqueeze_later (by decide) h2 (by decide)
  obtain ⟨z3, -⟩ := spSqueeze_later (by decide) h3 (by decide)
  rw [squeezeDigest, z0, z1, z2, z3]

/-- With a whole number of blocks received and none of it permuted since, the permuted state is R106's. -/
theorem keccakF_of_stateFits {trace : List Event} {S : LaneArray} {bs : List Byte} {n : Nat}
    (h : stateFits trace { S := S, ai := 17, oi := 0 }) (hr : lanesReceived trace = lanesOf bs)
    (hb : bs.length = 136 * (n + 1)) : keccakF S = absorbBlocks bs (n + 1) := by
  obtain ⟨k, hk, hS⟩ := h
  rw [hr] at hk hS
  have hk : (lanesOf bs).length = 17 * k + 17 := hk
  have hkn : k = n := by rw [length_lanesOf, hb] at hk; omega
  subst hkn
  have hlast : ((lanesOf bs).drop (17 * k)).take 17 = (lanesOf bs).drop (17 * k) :=
    List.take_of_length_le (by rw [List.length_drop, hk]; omega)
  rw [← stateAfterBlocks_lanesOf bs (k + 1) hb.ge, stateAfterBlocks, hlast]
  exact congrArg keccakF hS

/-- Byte `8*j + i` of the digest is byte `i` of its quarter `j` (R43). -/
theorem digestByte_quarter (d : Digest) (j : Nat) {i : Nat} (h : i < 8) :
    digestByte d (8 * j + i) = laneByte (quarter j d) i := by
  ext k hk
  have hin : 8 * i + k < 64 := by omega
  have hpos : 8 * (8 * j + i) + k = 64 * j + (8 * i + k) := by ring
  simp [digestByte, laneByte, quarter, hin, hpos]

/-- The quarters of the digest are the lanes it is assembled from (R29, R84). -/
theorem quarter_assembleDigest (z0 z1 z2 z3 : Lane) :
    quarter 0 (assembleDigest z0 z1 z2 z3) = z0 ∧ quarter 1 (assembleDigest z0 z1 z2 z3) = z1 ∧
      quarter 2 (assembleDigest z0 z1 z2 z3) = z2 ∧ quarter 3 (assembleDigest z0 z1 z2 z3) = z3 := by
  have above (start : Nat) (h : 64 ≤ start) : (assembleDigest z0 z1 z2 z3).extractLsb' start 64 =
      (z3 ++ z2 ++ z1).extractLsb' (start - 64) 64 := BitVec.extractLsb'_append_eq_of_le h
  refine ⟨BitVec.extractLsb'_append_eq_right, ?_, ?_, ?_⟩
  · exact (above 64 (by decide)).trans BitVec.extractLsb'_append_eq_right
  · exact (above 128 (by decide)).trans
      ((BitVec.extractLsb'_append_eq_of_le (by decide)).trans BitVec.extractLsb'_append_eq_right)
  · exact (above 192 (by decide)).trans
      ((BitVec.extractLsb'_append_eq_of_le (by decide)).trans BitVec.extractLsb'_append_eq_left)

/-- The digest's bytes are those of its lanes in order, each least significant byte first (R43). -/
theorem digestBytes_eq (d : Digest) :
    digestBytes d = (List.range 4).flatMap fun j => (List.range 8).map (laneByte (quarter j d)) := by
  have hindices : List.range 32 = (List.range 4).flatMap fun j => (List.range 8).map (8 * j + ·) := by decide
  rw [digestBytes, hindices, List.map_flatMap]
  refine List.flatMap_congr fun j _ => ?_
  rw [List.map_map]
  exact List.map_congr_left fun i hi => digestByte_quarter d j (List.mem_range.1 hi)

/-- The bytes of a digest assembled from lanes 0 to 3 of a state are the bytes of those lanes. -/
theorem digestBytes_assembleDigest (K : LaneArray) :
    digestBytes (assembleDigest K[0] K[1] K[2] K[3]) =
      (List.range 4).flatMap fun j => (List.range 8).map (laneByte (K.toList.getD j 0)) := by
  obtain ⟨q0, q1, q2, q3⟩ := quarter_assembleDigest K[0] K[1] K[2] K[3]
  rw [digestBytes_eq]
  refine List.flatMap_congr fun j hj => ?_
  have hj : j < 4 := List.mem_range.1 hj
  have hlane : K.toList.getD j 0 = K[j] := List.getD_eq_getElem _ _ (by simp; omega)
  rw [hlane]
  interval_cases j
  · rw [q0]
  · rw [q1]
  · rw [q2]
  · rw [q3]

/-- FINALIZE from a position in step with the collaborator leaves the Keccak-256 digest of the bytes absorbed. -/
theorem squeezeDigest_keccak256 {whole part : List Byte} {s : State} (hp : Position whole part s)
    (h : Linked s.lanes.toNat 0 s) :
    digestBytes (squeezeDigest (padBlock s)).digest = Safety.keccak256 (whole ++ part) := by
  obtain ⟨S, hc, hS⟩ := padBlock_linked hp.lanes_lt hp.upperBytesZero h
  rw [squeezeDigest_reference hc, digestBytes_assembleDigest,
    keccakF_of_stateFits hS (padBlock_received hp) (length_paddedMessage _)]
  rfl

/-! ### The driver's commands (R70, R89) -/

theorem commandOp_commandWord (op : BitVec 2) (d : Byte) : commandOp (commandWord op d) = op :=
  BitVec.extractLsb'_append_eq_left

theorem commandData_commandWord (op : BitVec 2) (d : Byte) : commandData (commandWord op d) = d :=
  BitVec.extractLsb'_append_eq_right

theorem decodeCommand_new (d : Byte) : decodeCommand (commandWord 0b01#2 d) = .new d := by
  simp [decodeCommand, commandOp_commandWord, commandData_commandWord]

theorem decodeCommand_absorb (b : Byte) : decodeCommand (commandWord 0b10#2 b) = .absorb b := by
  simp [decodeCommand, commandOp_commandWord, commandData_commandWord]

theorem decodeCommand_finalize (d : Byte) : decodeCommand (commandWord 0b11#2 d) = .finalize d := by
  simp [decodeCommand, commandOp_commandWord, commandData_commandWord]

/-- The input by which a driver presents ABSORB of a byte. -/
def absorbInput (b : Byte) : Input := .command (commandWord 0b10#2 b)

/-- What a driver presents for `keccak256` of a message: NEW, its bytes, FINALIZE (R89). -/
theorem keccak256Inputs_eq (m : List Byte) :
    keccak256Inputs m = .command (commandWord 0b01#2 0) :: (m.map absorbInput ++ [.command (commandWord 0b11#2 0)]) := by
  have hnew : assemble (.new 0) = some (commandWord 0b01#2 0) := rfl
  have hfinalize : [Instr.finalize 0].filterMap assemble = [commandWord 0b11#2 0] := rfl
  have habsorbs : ((m.map Instr.absorb).filterMap assemble).map Input.command = m.map absorbInput := by
    induction m with
    | nil => rfl
    | cons b m ih => exact congrArg (absorbInput b :: ·) ih
  rw [keccak256Inputs, keccak256Commands, List.cons_append, List.filterMap_cons_some hnew, List.filterMap_append,
    hfinalize, List.map_cons, List.map_append, habsorbs]
  rfl

/-! ### Runs -/

/-- A command presented to an idle block is run as a whole (R12, R80). -/
theorem step_command {s : State} {w : CommandWord} {rest : List Input} (hq : s.seq = .idle)
    (hi : s.inputs = .command w :: rest) : step s = exec (decodeCommand w) { s with inputs := rest } := by
  simp only [step, fetch, hi, if_pos hq]

theorem step_new {s : State} {rest : List Input} (hq : s.seq = .idle)
    (hi : s.inputs = .command (commandWord 0b01#2 0) :: rest) :
    step s = .next (startDigest { s with inputs := rest }) := by
  rw [step_command hq hi, decodeCommand_new]
  rfl

theorem step_absorb {s : State} {b : Byte} {rest : List Input} (hq : s.seq = .idle) (hp : s.phase = .active)
    (hi : s.inputs = absorbInput b :: rest) : step s = .next (injectByte b { s with inputs := rest }) := by
  rw [step_command hq hi, decodeCommand_absorb]
  exact if_pos hp

theorem step_finalize {s : State} {rest : List Input} (hq : s.seq = .idle) (hp : s.phase = .active)
    (hi : s.inputs = .command (commandWord 0b11#2 0) :: rest) :
    step s = .next (squeezeDigest (padBlock { s with inputs := rest })) := by
  rw [step_command hq hi, decodeCommand_finalize]
  exact if_pos hp

theorem core_run_succ (n : Nat) {s t : State} (h : step s = .next t) :
    Sys2Proof.core.run (n + 1) s = Sys2Proof.core.run n t := by
  simp only [Host.Core.run, Sys2Proof.core, h]

/-- The byte path does not look at the inputs to come. -/
theorem injectByte_inputs (b : Byte) (s : State) (r : List Input) :
    injectByte b { s with inputs := r } = { injectByte b s with inputs := r } := by
  by_cases h7 : s.fill = 7
  · by_cases h16 : s.lanes = 16
    · rw [injectByte_block b s h7 h16, injectByte_block b { s with inputs := r } h7 h16]
      rfl
    · rw [injectByte_lane b s h7 h16, injectByte_lane b { s with inputs := r } h7 h16]
      rfl
  · rw [injectByte_place b s h7, injectByte_place b { s with inputs := r } h7]

theorem injectBytes_inputs (m : List Byte) (s : State) (r : List Input) :
    injectBytes m { s with inputs := r } = { injectBytes m s with inputs := r } := by
  induction m generalizing s with
  | nil => rfl
  | cons b m ih => rw [injectBytes_cons, injectByte_inputs, ih, injectBytes_cons]

/-- The byte path touches none of the other registers, whatever the bytes. -/
theorem injectBytes_frame (m : List Byte) (s : State) :
    (injectBytes m s).phase = s.phase ∧ (injectBytes m s).err = s.err ∧ (injectBytes m s).errCause = s.errCause ∧
      (injectBytes m s).digest = s.digest ∧ (injectBytes m s).seq = s.seq ∧ (injectBytes m s).fin = s.fin ∧
      (injectBytes m s).inputs = s.inputs := by
  induction m generalizing s with
  | nil => simp
  | cons b m ih =>
    obtain ⟨hphase, herr, hcause, hdigest, hseq, hfin, hinputs⟩ := injectByte_frame b s
    obtain ⟨hphase', herr', hcause', hdigest', hseq', hfin', hinputs'⟩ := ih (injectByte b s)
    exact ⟨hphase'.trans hphase, herr'.trans herr, hcause'.trans hcause, hdigest'.trans hdigest, hseq'.trans hseq,
      hfin'.trans hfin, hinputs'.trans hinputs⟩

/-- The ABSORB commands of a message's bytes, one step each (R83, R89). -/
theorem core_run_absorbs (m : List Byte) (n : Nat) {s : State} {rest : List Input} (hq : s.seq = .idle)
    (hp : s.phase = .active) (hi : s.inputs = m.map absorbInput ++ rest) :
    Sys2Proof.core.run (n + m.length) s = Sys2Proof.core.run n { injectBytes m s with inputs := rest } := by
  induction m generalizing s with
  | nil =>
    have hs : { s with inputs := rest } = s := by rw [← show s.inputs = rest from hi]
    rw [injectBytes_nil, hs]
    rfl
  | cons b m ih =>
    obtain ⟨r, hr⟩ : ∃ r, r = m.map absorbInput ++ rest := ⟨_, rfl⟩
    obtain ⟨hphase, -, -, -, hseq, -, hinputs⟩ := injectByte_frame b { s with inputs := r }
    have hstep : step s = .next (injectByte b { s with inputs := r }) := step_absorb hq hp (by rw [hi, hr]; rfl)
    rw [List.length_cons, ← Nat.add_assoc, core_run_succ _ hstep, ih (hseq.trans hq) (hphase.trans hp) (hinputs.trans hr),
      injectByte_inputs, injectBytes_inputs, injectBytes_cons]

/-- The `L + 2` commands of `keccak256` on an idle block (R89). -/
theorem core_run_keccak256 (m : List Byte) {s : State} {rest : List Input} (hq : s.seq = .idle)
    (hi : s.inputs = keccak256Inputs m ++ rest) :
    Sys2Proof.core.run (m.length + 2) s =
      .next (squeezeDigest (padBlock (injectBytes m (startDigest { s with inputs := rest })))) := by
  obtain ⟨last, hlast⟩ : ∃ last, last = Input.command (commandWord 0b11#2 0) :: rest := ⟨_, rfl⟩
  obtain ⟨bytes, hbytes⟩ : ∃ bytes, bytes = m.map absorbInput ++ last := ⟨_, rfl⟩
  have hinputs : s.inputs = .command (commandWord 0b01#2 0) :: bytes := by
    rw [hi, keccak256Inputs_eq, hbytes, hlast]
    simp
  obtain ⟨u, hu⟩ : ∃ u, u = startDigest { s with inputs := bytes } := ⟨_, rfl⟩
  have hseq : u.seq = .idle := by rw [hu]; exact hq
  have hphase : u.phase = .active := by rw [hu]; rfl
  obtain ⟨hphase', -, -, -, hseq', -, -⟩ := injectBytes_frame m u
  calc Sys2Proof.core.run (m.length + 2) s
      = Sys2Proof.core.run (1 + m.length) u := by
        rw [show m.length + 2 = 1 + m.length + 1 by omega, core_run_succ _ (step_new hq hinputs), hu]
    _ = Sys2Proof.core.run 1 { injectBytes m u with inputs := last } :=
        core_run_absorbs m 1 hseq hphase (by rw [hu]; exact hbytes)
    _ = .next (squeezeDigest (padBlock { injectBytes m u with inputs := rest })) :=
        core_run_succ 0 (step_finalize (hseq'.trans hseq) (hphase'.trans hphase) hlast)
    _ = .next (squeezeDigest (padBlock (injectBytes m (startDigest { s with inputs := rest })))) := by
        rw [← injectBytes_inputs, hu]
        rfl

end Sys2Proof.WholeDigest
end

section
/-! PROOF. The obligations of the scope family (spec/00_scope.md). -/

open Sys2Proof Sys2Proof.Machine Sys2Proof.Safety Sys2Proof.WholeDigest

/-- Settles O52: by induction over the message's bytes the lanes the block has sent are the message's, and the reference
collaborator's state is R106's state of those lanes; FINALIZE completes both with the padding. -/
theorem digestIsKeccak256 : Obligations.DigestIsKeccak256 := by
  unfold Obligations.DigestIsKeccak256
  intro m s rest hq hc hi
  have hstart := startDigest_position { s with inputs := rest }
  obtain ⟨whole, part, hm, hp⟩ := injectBytes_position m hstart
  have hlink := injectBytes_linked m hstart (spInit_fresh_linked hc)
  refine ⟨_, core_run_keccak256 m hq hi, rfl, ?_⟩
  rw [squeezeDigest_keccak256 hp hlink, hm]
  rfl

/-- Settles O19: the meaning of each request is `issue` of its one event, with the state its collaborator answers. -/
theorem spongeOperationsComplete : Obligations.SpongeOperationsComplete := by
  unfold Obligations.SpongeOperationsComplete
  intro s
  refine ⟨fun f => ?_, fun l => ?_, ?_, ?_⟩
  · exact ⟨collabInit s.trace f s.collab, rfl⟩
  · exact ⟨collabAbsorb l s.collab, rfl⟩
  · exact ⟨(collabOutput s.trace s.collab).2, rfl⟩
  · exact ⟨squeezed s, (collabOutput s.trace s.collab).2, rfl⟩

end

section
/-!
PROOF. What the commands and the sequencer can do to the block's registers, said once: the whole set of a command's outcomes
(R80), the registers that the padding leaves alone (R84), and what any step but a reset does to `err` and `err_cause` (R124).
-/

namespace Sys2Proof.Registers

open Sys2Proof.Machine Sys2Proof.Safety Sys2Proof.WholeDigest

/-! ### The outcomes of an instruction -/

/-- Everything an instruction can do (R80, R100). -/
theorem exec_cases {i : Instr} {s t : State} (h : exec i s = .next t) :
    (∃ c, c ≠ .none ∧ t = errorEntry c s) ∨ t = startDigest s ∨ (∃ b, s.phase = .active ∧ t = injectByte b s) ∨
    (s.phase = .active ∧ t = squeezeDigest (padBlock s)) ∨ (∃ e c, t = issue e c s) := by
  cases i with
  | reserved d => cases h; exact .inl ⟨.illegalOp, by decide, rfl⟩
  | new d => cases h; exact .inr (.inl rfl)
  | absorb b =>
    simp only [exec, execAbsorb] at h
    split at h
    next ha => cases h; exact .inr (.inr (.inl ⟨b, ha, rfl⟩))
    next => cases h; exact .inl ⟨.absorbNotActive, by decide, rfl⟩
  | finalize d =>
    simp only [exec, execFinalize] at h
    split at h
    next ha => cases h; exact .inr (.inr (.inr (.inl ⟨ha, rfl⟩)))
    next => cases h; exact .inl ⟨.finalizeNotActive, by decide, rfl⟩
  | init f => cases h; exact .inr (.inr (.inr (.inr ⟨_, _, rfl⟩)))
  | absorbLane l => cases h; exact .inr (.inr (.inr (.inr ⟨_, _, rfl⟩)))
  | advance => cases h; exact .inr (.inr (.inr (.inr ⟨_, _, rfl⟩)))
  | squeeze => cases h; exact .inr (.inr (.inr (.inr ⟨_, _, rfl⟩)))

/-- A request word of the table decodes to one of the four sponge operations (R66). -/
theorem decodeRequest_cases {w : RequestWord} {i : Instr} (h : decodeRequest w = .ok i) :
    (∃ f, i = .init f) ∨ (∃ l, i = .absorbLane l) ∨ i = .advance ∨ i = .squeeze := by
  unfold decodeRequest at h
  split_ifs at h <;> cases h
  · exact .inl ⟨false, rfl⟩
  · exact .inl ⟨true, rfl⟩
  · exact .inr (.inl ⟨_, rfl⟩)
  · exact .inr (.inr (.inl rfl))
  · exact .inr (.inr (.inr rfl))

/-- So it runs as one event at the port, whatever the block is doing (R16). -/
theorem exec_request {w : RequestWord} {i : Instr} {s t : State} (hd : decodeRequest w = .ok i)
    (h : exec i s = .next t) : ∃ e c, t = issue e c s := by
  obtain ⟨f, rfl⟩ | ⟨l, rfl⟩ | rfl | rfl := decodeRequest_cases hd <;> cases h <;> exact ⟨_, _, rfl⟩

theorem exec_absorb_active {b : Byte} {s : State} (h : s.phase = .active) :
    exec (.absorb b) s = .next (injectByte b s) := if_pos h

theorem exec_absorb_inactive {b : Byte} {s : State} (h : s.phase ≠ .active) :
    exec (.absorb b) s = .next (errorEntry .absorbNotActive s) := if_neg h

theorem exec_finalize_active {d : Byte} {s : State} (h : s.phase = .active) :
    exec (.finalize d) s = .next (squeezeDigest (padBlock s)) := if_pos h

theorem exec_finalize_inactive {d : Byte} {s : State} (h : s.phase ≠ .active) :
    exec (.finalize d) s = .next (errorEntry .finalizeNotActive s) := if_neg h

/-! ### What FINALIZE leaves alone (R84) -/

/-- The padding's zeros are bytes through the byte path. -/
theorem injectZeros_eq (n : Nat) (s : State) : injectZeros n s = injectBytes (List.replicate n 0x00) s := by
  induction n generalizing s with
  | zero => rfl
  | succ n ih => rw [injectZeros_succ, ih, List.replicate_succ, injectBytes_cons]

/-- FINALIZE's padding touches none of the other registers, from any state. -/
theorem padBlock_frame (s : State) :
    (padBlock s).phase = s.phase ∧ (padBlock s).err = s.err ∧ (padBlock s).errCause = s.errCause ∧
      (padBlock s).digest = s.digest ∧ (padBlock s).seq = s.seq ∧ (padBlock s).fin = s.fin ∧
      (padBlock s).inputs = s.inputs := by
  simp only [padBlock]
  split
  · simp
  · rw [injectZeros_eq, ← injectBytes_cons]
    exact injectBytes_frame _ s

/-- Nor does the squeeze at FINALIZE's end, but for `digest` and `phase`. -/
theorem squeezeDigest_frame (s : State) :
    (squeezeDigest s).err = s.err ∧ (squeezeDigest s).errCause = s.errCause ∧ (squeezeDigest s).seq = s.seq ∧
      (squeezeDigest s).fin = s.fin ∧ (squeezeDigest s).inputs = s.inputs := ⟨rfl, rfl, rfl, rfl, rfl⟩

/-- FINALIZE leaves the error registers, the sequencer and the inputs alone. -/
theorem finalize_frame (s : State) :
    (squeezeDigest (padBlock s)).err = s.err ∧ (squeezeDigest (padBlock s)).errCause = s.errCause ∧
      (squeezeDigest (padBlock s)).seq = s.seq ∧ (squeezeDigest (padBlock s)).fin = s.fin ∧
      (squeezeDigest (padBlock s)).inputs = s.inputs := by
  obtain ⟨-, herr, hcause, -, hseq, hfin, hinputs⟩ := padBlock_frame s
  obtain ⟨herr', hcause', hseq', hfin', hinputs'⟩ := squeezeDigest_frame (padBlock s)
  exact ⟨herr'.trans herr, hcause'.trans hcause, hseq'.trans hseq, hfin'.trans hfin, hinputs'.trans hinputs⟩

/-- No instruction run as a whole moves the sequencer (R12, R32). -/
theorem exec_seq {i : Instr} {s t : State} (h : exec i s = .next t) : t.seq = s.seq := by
  obtain ⟨c, -, rfl⟩ | rfl | ⟨b, -, rfl⟩ | ⟨-, rfl⟩ | ⟨e, c, rfl⟩ := exec_cases h
  · rfl
  · rfl
  · obtain ⟨-, -, -, -, hseq, -, -⟩ := injectByte_frame b s
    exact hseq
  · obtain ⟨-, -, hseq, -, -⟩ := finalize_frame s
    exact hseq
  · rfl

/-! ### The sequencer -/

/-- Everything an idle block can do with a command word (R92). -/
theorem acceptCommand_cases (w : CommandWord) (s : State) :
    (∃ c, c ≠ .none ∧ acceptCommand w s = errorEntry c s) ∨ acceptCommand w s = startDigest s ∨
    (s.phase = .active ∧ acceptCommand w s = place (commandData w) s) ∨
    (s.phase = .active ∧ acceptCommand w s =
      { s with fin := true, seq := if s.fill = 7 ∧ s.lanes = 16 then .last81 else .pad1 }) := by
  unfold acceptCommand
  split
  · exact .inl ⟨.illegalOp, by decide, rfl⟩
  split
  · exact .inr (.inl rfl)
  split
  · split
    next ha => exact .inr (.inr (.inl ⟨ha, rfl⟩))
    next => exact .inl ⟨.absorbNotActive, by decide, rfl⟩
  · split
    next ha => exact .inr (.inr (.inr ⟨ha, rfl⟩))
    next => exact .inl ⟨.finalizeNotActive, by decide, rfl⟩

/-- In IDLE a micro-step is the acceptance of a command, if one is presented (R92). -/
theorem microStep_idle (p : Pins) {s : State} (h : s.seq = .idle) :
    microStep p s = if p.cmdValid then acceptCommand p.cmd s else s := by
  simp only [microStep, h]

/-! ### The error registers (R124) -/

/-- What a step without a reset can do to `err` and `err_cause`: leave them, or perform error entry of some cause. -/
def ErrorStep (s t : State) : Prop :=
  (t.err = s.err ∧ t.errCause = s.errCause) ∨
    ∃ c, c ≠ .none ∧ t.err = true ∧ t.errCause = firstCause s.err s.errCause c

theorem ErrorStep.refl (s : State) : ErrorStep s s := .inl ⟨rfl, rfl⟩

theorem errorEntry_errorStep {c : ErrCause} (h : c ≠ .none) (s : State) : ErrorStep s (errorEntry c s) :=
  .inr ⟨c, h, rfl, rfl⟩

/-- Error entry keeps the first cause (R124, R125). -/
theorem ErrorStep.sticky {s t : State} (h : ErrorStep s t) (he : s.err = true) :
    t.err = true ∧ t.errCause = s.errCause := by
  obtain ⟨herr, hcause⟩ | ⟨c, -, herr, hcause⟩ := h
  · exact ⟨herr.trans he, hcause⟩
  · exact ⟨herr, by rw [hcause, firstCause, if_pos he]⟩

/-- The cause stays none exactly while there is no error (R120). -/
theorem ErrorStep.keeps_cause {s t : State} (h : ErrorStep s t) (hs : s.err = false ↔ s.errCause = .none) :
    t.err = false ↔ t.errCause = .none := by
  obtain ⟨herr, hcause⟩ | ⟨c, hc, herr, hcause⟩ := h
  · rw [herr, hcause]
    exact hs
  · rw [herr, hcause]
    cases he : s.err
    · simp [firstCause, hc]
    · simpa [firstCause, he] using hs

theorem exec_errorStep {i : Instr} {s t : State} (h : exec i s = .next t) : ErrorStep s t := by
  obtain ⟨c, hc, rfl⟩ | rfl | ⟨b, -, rfl⟩ | ⟨-, rfl⟩ | ⟨e, c, rfl⟩ := exec_cases h
  · exact errorEntry_errorStep hc s
  · exact .refl s
  · obtain ⟨-, herr, hcause, -⟩ := injectByte_frame b s
    exact .inl ⟨herr, hcause⟩
  · obtain ⟨herr, hcause, -⟩ := finalize_frame s
    exact .inl ⟨herr, hcause⟩
  · exact .refl s

theorem place_errorStep (b : Byte) (s : State) : ErrorStep s (place b s) := by
  by_cases h : s.fill = 7
  · rw [place_full b s h]; exact .refl s
  · rw [place_within b s h]; exact .refl s

theorem acceptCommand_errorStep (w : CommandWord) (s : State) : ErrorStep s (acceptCommand w s) := by
  obtain ⟨c, hc, e⟩ | e | ⟨-, e⟩ | ⟨-, e⟩ := acceptCommand_cases w s <;> rw [e]
  · exact errorEntry_errorStep hc s
  · exact .refl s
  · exact place_errorStep _ s
  · exact .refl s

theorem microStep_errorStep (p : Pins) (s : State) : ErrorStep s (microStep p s) := by
  cases hq : s.seq with
  | idle =>
    rw [microStep_idle p hq]
    split
    · exact acceptCommand_errorStep p.cmd s
    · exact .refl s
  | emit =>
    simp only [microStep, hq]
    split <;> exact .refl s
  | pad1 =>
    simp only [microStep, hq]
    exact place_errorStep _ s
  | padz =>
    simp only [microStep, hq]
    split
    · exact .refl s
    · exact place_errorStep _ s
  | adv0 | adv1 | adv2 | adv3 | reinit | last80 | last81 | sq0 | sq1 | sq2 | sq3 | init1 =>
    simp only [microStep, hq]
    exact .refl s

theorem clockCycle_errorStep {p : Pins} (s : State) (hr : p.rst = false) : ErrorStep s (clockCycle p s) := by
  obtain ⟨h, -⟩ | ⟨-, -, -, -, e⟩ | ⟨-, -, -, -, -, e⟩ | ⟨-, -, e⟩ := clockCycle_cases p s
  · simp [hr] at h
  · rw [e]; exact .refl s
  · rw [e]; exact .refl s
  · rw [e]; exact microStep_errorStep p s

/-- No step but a reset does more to the error registers than error entry (R28, R124, R125). -/
theorem step_errorStep {s t : State} (h : step s = .next t) (hr : ¬ resetRequested s) : ErrorStep s t := by
  obtain ⟨-, rfl⟩ | ⟨w, rest, -, -, hx⟩ | ⟨w, rest, -, -, rfl⟩ | ⟨rest, hi, -⟩ | ⟨p, rest, hi, rfl⟩ |
    ⟨w, i, rest, -, -, hx⟩ := step_cases h
  · exact .refl _
  · exact exec_errorStep (s := { s with inputs := rest }) hx
  · exact clockCycle_errorStep s rfl
  · simp [resetRequested, hi] at hr
  · have hp : p.rst = false := by simpa [resetRequested, hi] using hr
    exact clockCycle_errorStep { s with inputs := rest } hp
  · exact exec_errorStep (s := { s with inputs := rest }) hx

end Sys2Proof.Registers
end

section
/-!
PROOF. The block's invariant: the byte path keeps its place in the lane and in the block (R24, R26), each cycle of the
sequencer leaves the registers as the next state has them (R92), and so every step keeps `BlockInv`.
-/

namespace Sys2Proof.Registers

open Sys2Proof.Machine Sys2Proof.Safety Sys2Proof.WholeDigest

/-- The part of `BlockInv` that is not about the error registers (R24, R26, R32). -/
def PositionInv (s : State) : Prop := s.lanes.toNat < 17 ∧ registersFit s

/-- `BlockInv` in two parts: the place in the block, and the error registers. -/
theorem blockInv_iff (s : State) : BlockInv s ↔ PositionInv s ∧ (s.err = false ↔ s.errCause = .none) := by
  rw [BlockInv, PositionInv, and_assoc, and_comm (a := registersFit s)]

/-- A step that is no reset keeps `BlockInv` if it keeps the place in the block. -/
theorem blockInv_of_errorStep {s t : State} (h : BlockInv s) (he : ErrorStep s t) (hp : PositionInv t) : BlockInv t :=
  (blockInv_iff t).2 ⟨hp, he.keeps_cause ((blockInv_iff s).1 h).2⟩

/-- In IDLE: `fin = 0`, the upper bytes zero, and clear data registers outside ACTIVE (R26, R32). -/
theorem registersFit_idle {s : State} (h : s.seq = .idle) : registersFit s ↔
    s.fin = false ∧ upperBytesZero s ∧ (s.phase ≠ .active → s.acc = 0 ∧ s.fill = 0 ∧ s.lanes = 0) := by
  simp only [registersFit, h]

/-- A command in progress is a digest in progress: outside ACTIVE the sequencer is idle. -/
theorem seq_idle_of_blockInv {s : State} (h : BlockInv s) (hp : s.phase ≠ .active) : s.seq = .idle := by
  obtain ⟨-, -, hfit⟩ := h
  cases hq : s.seq with
  | idle => rfl
  | emit | adv0 | adv1 | adv2 | adv3 | reinit | pad1 | padz | last80 | last81 | sq0 | sq1 | sq2 | sq3 | init1 =>
    simp only [registersFit, hq] at hfit
    exact absurd hfit.1 hp

/-! ### The byte path -/

theorem upperBytesZero_of_acc {s : State} (h : s.acc = 0) : upperBytesZero s := by
  rw [upperBytesZero, h]
  exact BitVec.zero_ushiftRight

/-- A byte placed inside a lane leaves the bytes above it zero (R26). -/
theorem upperBytesZero_place (b : Byte) {s : State} (h : upperBytesZero s) (h7 : s.fill ≠ 7) :
    upperBytesZero { s with acc := placeByte s.acc s.fill b, fill := s.fill + 1 } := by
  simp only [upperBytesZero, shift_eq_zero_iff, fill_succ _ h7] at h ⊢
  exact placeByte_upper s.acc s.fill b h

/-- The byte path keeps the bytes at and above `fill` zero (R26). -/
theorem injectByte_upperBytesZero (b : Byte) {s : State} (h : upperBytesZero s) : upperBytesZero (injectByte b s) := by
  by_cases h7 : s.fill = 7
  · by_cases h16 : s.lanes = 16
    · rw [injectByte_block b s h7 h16]
      exact upperBytesZero_of_acc rfl
    · rw [injectByte_lane b s h7 h16]
      exact upperBytesZero_of_acc rfl
  · rw [injectByte_place b s h7]
    exact upperBytesZero_place b h h7

/-- The byte path keeps `lanes` below 17 (R24). -/
theorem injectByte_lanes_lt (b : Byte) {s : State} (h : s.lanes.toNat < 17) : (injectByte b s).lanes.toNat < 17 := by
  by_cases h7 : s.fill = 7
  · by_cases h16 : s.lanes = 16
    · rw [injectByte_block b s h7 h16]
      exact Nat.zero_lt_succ 16
    · have hlt := lanes_lt_of_ne h h16
      rw [injectByte_lane b s h7 h16]
      simp only [lanes_succ _ hlt]
      omega
  · rw [injectByte_place b s h7]
    exact h

/-! ### Commands run as a whole -/

/-- Clear data registers and an idle sequencer are a place in the block in every phase. -/
theorem positionInv_clear {s : State} (hq : s.seq = .idle) (hfin : s.fin = false) (ha : s.acc = 0) (hf : s.fill = 0)
    (hl : s.lanes = 0) : PositionInv s := by
  refine ⟨by simp [hl], (registersFit_idle hq).2 ⟨hfin, upperBytesZero_of_acc ha, fun _ => ⟨ha, hf, hl⟩⟩⟩

/-- A command run as a whole by an idle block keeps the place in the block. -/
theorem exec_positionInv {i : Instr} {s t : State} (hq : s.seq = .idle) (h : PositionInv s) (hx : exec i s = .next t) :
    PositionInv t := by
  obtain ⟨hl, hfit⟩ := h
  obtain ⟨hfin, hz, -⟩ := (registersFit_idle hq).1 hfit
  obtain ⟨c, -, rfl⟩ | rfl | ⟨b, ha, rfl⟩ | ⟨-, rfl⟩ | ⟨e, c, rfl⟩ := exec_cases hx
  · exact ⟨hl, hfit⟩
  · exact positionInv_clear hq hfin rfl rfl rfl
  · obtain ⟨hphase, -, -, -, hseq, hfin', -⟩ := injectByte_frame b s
    exact ⟨injectByte_lanes_lt b hl, (registersFit_idle (hseq.trans hq)).2
      ⟨hfin'.trans hfin, injectByte_upperBytesZero b hz, fun hn => absurd (hphase.trans ha) hn⟩⟩
  · obtain ⟨-, -, hseq, hfin', -⟩ := finalize_frame s
    exact positionInv_clear (hseq.trans hq) (hfin'.trans hfin) rfl rfl rfl
  · exact ⟨hl, hfit⟩

/-! ### The sequencer (R92) -/

/-- A placement or a flush is over: the block goes back to the padding or to IDLE. -/
theorem registersFit_afterByte {s : State} (hq : s.seq = seqAfterByte s.fin) (hp : s.phase = .active)
    (hz : upperBytesZero s) : registersFit s := by
  cases hfin : s.fin with
  | false =>
    rw [hfin] at hq
    exact (registersFit_idle hq).2 ⟨hfin, hz, fun hn => absurd hp hn⟩
  | true =>
    have hpadz : s.seq = .padz := by rw [hq, hfin]; rfl
    simp only [registersFit, hpadz]
    exact ⟨hp, hfin, hz⟩

/-- `Place(b)` keeps the place in the block: the padding never places a byte at the block's last position (R87). -/
theorem place_positionInv (b : Byte) {s : State} (hl : s.lanes.toNat < 17) (hp : s.phase = .active)
    (hz : upperBytesZero s) (hlast : s.fin = true → ¬ (s.fill = 7 ∧ s.lanes = 16)) : PositionInv (place b s) := by
  by_cases h7 : s.fill = 7
  · rw [place_full b s h7]
    exact ⟨hl, hp, h7, fun hfin => lanes_lt_of_ne hl fun h16 => hlast hfin ⟨h7, h16⟩⟩
  · rw [place_within b s h7]
    exact ⟨hl, registersFit_afterByte rfl hp (upperBytesZero_place b hz h7)⟩

/-- Accepting a command word keeps the place in the block. -/
theorem acceptCommand_positionInv (w : CommandWord) {s : State} (hq : s.seq = .idle) (h : PositionInv s) :
    PositionInv (acceptCommand w s) := by
  obtain ⟨hl, hfit⟩ := h
  obtain ⟨hfin, hz, -⟩ := (registersFit_idle hq).1 hfit
  obtain ⟨c, -, e⟩ | e | ⟨ha, e⟩ | ⟨ha, e⟩ := acceptCommand_cases w s <;> rw [e]
  · exact ⟨hl, hfit⟩
  · exact positionInv_clear hq hfin rfl rfl rfl
  · exact place_positionInv _ hl ha hz (by simp [hfin])
  · by_cases hlast : s.fill = 7 ∧ s.lanes = 16
    · rw [if_pos hlast]
      exact ⟨hl, ha, rfl, hz, hlast⟩
    · rw [if_neg hlast]
      exact ⟨hl, ha, rfl, hz, hlast⟩

/-- The lane flush's end in EMIT: the 17th lane of a block is followed by the block transition, which no FINALIZE in
progress reaches (R87). -/
theorem microStep_emit_positionInv (p : Pins) {s : State} (hq : s.seq = .emit) (h : PositionInv s) :
    PositionInv (microStep p s) := by
  obtain ⟨hl, hfit⟩ := h
  simp only [registersFit, hq] at hfit
  obtain ⟨hp, -, hlast⟩ := hfit
  simp only [microStep, hq]
  by_cases h16 : s.lanes = 16
  · have hfin : s.fin = false := by
      by_contra hfin
      have := hlast (by simpa using hfin)
      simp [h16] at this
    rw [if_pos h16]
    exact ⟨hl, hp, hfin, rfl, rfl, h16⟩
  · have hlt := lanes_lt_of_ne hl h16
    rw [if_neg h16]
    exact ⟨by simp only [lanes_succ _ hlt]; omega, registersFit_afterByte rfl hp (upperBytesZero_of_acc rfl)⟩

/-- Each micro-step leaves the registers as the sequencer's next state has them. -/
theorem microStep_positionInv (p : Pins) {s : State} (h : PositionInv s) : PositionInv (microStep p s) := by
  have ⟨hl, hfit⟩ := h
  cases hq : s.seq with
  | idle =>
    rw [microStep_idle p hq]
    split
    · exact acceptCommand_positionInv p.cmd hq h
    · exact h
  | emit => exact microStep_emit_positionInv p hq h
  | reinit =>
    simp only [registersFit, hq] at hfit
    obtain ⟨hp, -, ha, -, -⟩ := hfit
    simp only [microStep, hq]
    exact ⟨Nat.zero_lt_succ 16, registersFit_afterByte rfl hp (upperBytesZero_of_acc ha)⟩
  | pad1 =>
    simp only [registersFit, hq] at hfit
    obtain ⟨hp, -, hz, hlast⟩ := hfit
    simp only [microStep, hq]
    exact place_positionInv _ hl hp hz fun _ => hlast
  | padz =>
    simp only [registersFit, hq] at hfit
    obtain ⟨hp, hfin, hz⟩ := hfit
    simp only [microStep, hq]
    split
    next hlast => exact ⟨hl, hp, hfin, hz, hlast⟩
    next hlast => exact place_positionInv _ hl hp hz fun _ => hlast
  | sq3 =>
    simp only [microStep, hq]
    exact positionInv_clear rfl rfl rfl rfl rfl
  | init1 =>
    simp only [registersFit, hq] at hfit
    obtain ⟨-, hfin, ha, hf, hl0⟩ := hfit
    simp only [microStep, hq]
    exact positionInv_clear rfl hfin ha hf hl0
  | adv0 | adv1 | adv2 | adv3 | last80 | last81 | sq0 | sq1 | sq2 =>
    simp only [registersFit, hq] at hfit
    simp only [microStep, hq]
    exact ⟨hl, hfit⟩

/-! ### Every step -/

/-- A reset puts the block in a state that meets the invariant (R35, R140). -/
theorem takeReset_blockInv (s : State) : BlockInv (takeReset s) :=
  (blockInv_iff _).2 ⟨positionInv_clear rfl rfl rfl rfl rfl, by simp⟩

/-- A clock cycle keeps the invariant, whatever stands on the pins. -/
theorem clockCycle_blockInv (p : Pins) {s : State} (h : BlockInv s) : BlockInv (clockCycle p s) := by
  obtain ⟨hpos, hcause⟩ := (blockInv_iff s).1 h
  obtain ⟨-, e⟩ | ⟨-, -, -, -, e⟩ | ⟨-, -, -, -, hq, e⟩ | ⟨-, -, e⟩ := clockCycle_cases p s <;> rw [e]
  · exact takeReset_blockInv s
  · exact h
  · obtain ⟨hfin, -, -⟩ := (registersFit_idle hq).1 hpos.2
    exact (blockInv_iff _).2 ⟨⟨Nat.zero_lt_succ 16, rfl, hfin, rfl, rfl, rfl⟩, hcause⟩
  · exact blockInv_of_errorStep h (microStep_errorStep p s) (microStep_positionInv p hpos)

/-- A command taken by an idle block keeps the invariant. -/
theorem exec_blockInv {i : Instr} {s t : State} (hq : s.seq = .idle) (h : BlockInv s) (hx : exec i s = .next t) :
    BlockInv t :=
  blockInv_of_errorStep h (exec_errorStep hx) (exec_positionInv hq ((blockInv_iff s).1 h).1 hx)

/-- An event at the port keeps it too, whatever the sequencer is doing (R16). -/
theorem issue_blockInv (e : Event) (c : Collaborator) {s : State} (h : BlockInv s) : BlockInv (issue e c s) := h

/-- It says nothing of the inputs to come. -/
theorem blockInv_inputs (r : List Input) {s : State} (h : BlockInv s) : BlockInv { s with inputs := r } := h

end Sys2Proof.Registers
end

section
/-!
PROOF. What a valid digest, an idle clock cycle and a byte placed in a lane rest on: which steps leave `digest` alone (R29),
what the inputs that are no commands do (R36, R131), the placements of R94, and the commands of a message's bytes (R89).
-/

namespace Sys2Proof.Registers

open Sys2Proof.Machine Sys2Proof.Safety Sys2Proof.WholeDigest

/-! ### The digest register (R29) -/

/-- Outside ACTIVE no command writes `digest` (R122). -/
theorem exec_digest_of_inactive {i : Instr} {s t : State} (hp : s.phase ≠ .active) (h : exec i s = .next t) :
    t.digest = s.digest := by
  obtain ⟨c, -, rfl⟩ | rfl | ⟨b, ha, -⟩ | ⟨ha, -⟩ | ⟨e, c, rfl⟩ := exec_cases h
  · rfl
  · rfl
  · exact absurd ha hp
  · exact absurd ha hp
  · rfl

/-- Accepting a command word does not write `digest`: the sequencer does that later (R92). -/
theorem acceptCommand_digest (w : CommandWord) (s : State) : (acceptCommand w s).digest = s.digest := by
  obtain ⟨c, -, e⟩ | e | ⟨-, e⟩ | ⟨-, e⟩ := acceptCommand_cases w s <;> rw [e]
  · rfl
  · rfl
  · by_cases h7 : s.fill = 7
    · rw [place_full _ s h7]
    · rw [place_within _ s h7]

/-- A clock cycle of an idle block does not write `digest`, but for a reset. -/
theorem clockCycle_digest_of_idle {p : Pins} {s : State} (hr : p.rst = false) (hq : s.seq = .idle) :
    (clockCycle p s).digest = s.digest := by
  obtain ⟨h, -⟩ | ⟨-, -, -, -, e⟩ | ⟨-, -, -, -, -, e⟩ | ⟨-, -, e⟩ := clockCycle_cases p s
  · simp [hr] at h
  · rw [e]
  · rw [e]; rfl
  · rw [e, microStep_idle p hq]
    split
    · exact acceptCommand_digest p.cmd s
    · rfl

/-! ### Inputs that are no commands (R36) -/

theorem step_clock {s : State} {p : Pins} {rest : List Input} (hi : s.inputs = .clock p :: rest) :
    step s = .next (clockCycle p { s with inputs := rest }) := by
  simp only [step, fetch, hi]

/-- A request from outside the block, if the step is not refused, is one event at the port. -/
theorem step_request {s t : State} {w : RequestWord} {rest : List Input} (hi : s.inputs = .request w :: rest)
    (h : step s = .next t) : ∃ e c, t = issue e c { s with inputs := rest } := by
  cases hd : decodeRequest w with
  | ok i =>
    simp only [step, fetch, hi, hd] at h
    exact exec_request hd h
  | error why =>
    simp only [step, fetch, hi, hd] at h
    cases h

/-- An idle block to which nothing is presented holds its state over a clock cycle (R131). -/
theorem clockCycle_of_idle_quiet {p : Pins} {s : State} (hr : p.rst = false) (hv : p.cmdValid = false)
    (hq : s.seq = .idle) : clockCycle p s = s := by
  obtain ⟨h, -⟩ | ⟨-, -, -, -, e⟩ | ⟨-, h, -⟩ | ⟨-, -, e⟩ := clockCycle_cases p s
  · simp [hr] at h
  · exact e
  · simp [hv] at h
  · rw [e, microStep_idle p hq, hv]
    rfl

/-! ### Placements (R94) -/

/-- Without a common one, or and xor agree. -/
theorem or_eq_xor_of_and_eq_zero {w : Nat} (x y : BitVec w) (h : x &&& y = 0#w) : x ||| y = x ^^^ y := by
  apply BitVec.eq_of_getLsbD_eq
  intro i _
  have hi : (x.getLsbD i && y.getLsbD i) = false := by rw [← BitVec.getLsbD_and, h, BitVec.getLsbD_zero]
  rw [BitVec.getLsbD_or, BitVec.getLsbD_xor]
  revert hi
  cases x.getLsbD i <;> cases y.getLsbD i <;> decide

/-- A lane with zeros from bit `n` up has no one in common with a value moved up by `n`. -/
theorem and_shiftLeft_eq_zero {acc : Lane} {n : Nat} (h : acc >>> n = 0) (v : Lane) : acc &&& (v <<< n) = 0#64 := by
  apply BitVec.eq_of_getLsbD_eq
  intro i _
  rw [BitVec.getLsbD_and, BitVec.getLsbD_shiftLeft, BitVec.getLsbD_zero]
  by_cases hi : i < n
  · simp [hi]
  · have hacc : acc.getLsbD i = false := by
      have := congrArg (BitVec.getLsbD · (i - n)) h
      simpa [BitVec.getLsbD_ushiftRight, show n + (i - n) = i by omega] using this
    rw [hacc, Bool.false_and]

/-! ### The commands of a message's bytes (R83, R89) -/

theorem runCommands_absorbs (m : List Byte) {s : State} (h : s.phase = .active) :
    runCommands (m.map .absorb) s = .next (injectBytes m s) := by
  induction m generalizing s with
  | nil => rfl
  | cons b m ih =>
    rw [List.map_cons, runCommands, exec_absorb_active h]
    exact ih ((injectByte_frame b s).1.trans h)

end Sys2Proof.Registers
end

section
/-! PROOF. The obligations of the state family (spec/10_state.md). -/

open Sys2Proof Sys2Proof.Machine Sys2Proof.Safety Sys2Proof.WholeDigest Sys2Proof.Registers

/-- Settles O43: a step is a command of an idle block, a clock cycle, a reset or an event at the port, and each keeps the
place in the block and the error registers. -/
theorem stepKeepsBlockInv : Obligations.StepKeepsBlockInv := by
  unfold Obligations.StepKeepsBlockInv
  intro s t h hstep
  obtain ⟨-, rfl⟩ | ⟨w, rest, -, hq, hx⟩ | ⟨w, rest, -, -, rfl⟩ | ⟨rest, -, rfl⟩ | ⟨p, rest, -, rfl⟩ |
    ⟨w, i, rest, -, hd, hx⟩ := step_cases hstep
  · exact h
  · exact exec_blockInv (s := { s with inputs := rest }) hq (blockInv_inputs rest h) hx
  · exact clockCycle_blockInv quietPins h
  · exact takeReset_blockInv _
  · exact clockCycle_blockInv p (blockInv_inputs rest h)
  · obtain ⟨e, c, rfl⟩ := exec_request hd hx
    exact issue_blockInv e c (blockInv_inputs rest h)

/-- Settles O17: each command's effect is one of the block's operations, and their frames say what they leave alone. -/
theorem commandsWriteTheirRegistersOnly : Obligations.CommandsWriteTheirRegistersOnly := by
  unfold Obligations.CommandsWriteTheirRegistersOnly
  intro d s t
  refine ⟨fun h => ?_, fun h ha => ?_, fun h ha => ?_, fun h hn => ?_, fun h hn => ?_, fun h => ?_⟩
  · cases h
    exact ⟨rfl, rfl, rfl, rfl, rfl, rfl, rfl, rfl, rfl, rfl⟩
  · rw [exec_absorb_active ha] at h
    cases h
    exact injectByte_frame d s
  · rw [exec_finalize_active ha] at h
    cases h
    exact ⟨rfl, rfl, rfl, rfl, finalize_frame s⟩
  · rw [exec_absorb_inactive hn] at h
    cases h
    rfl
  · rw [exec_finalize_inactive hn] at h
    cases h
    rfl
  · cases h
    rfl

/-- Settles O28: a step without a reset leaves the error registers or performs error entry, which keeps the first cause. -/
theorem errorIsSticky : Obligations.ErrorIsSticky := by
  unfold Obligations.ErrorIsSticky
  intro s t h he hr
  exact (step_errorStep h hr).sticky he

/-- Settles O34: by the invariant a block that is DONE is idle, and an idle block writes `digest` in ACTIVE only. -/
theorem validDigestIsStable : Obligations.ValidDigestIsStable := by
  unfold Obligations.ValidDigestIsStable
  intro s t hinv hdone hstep hr
  have hdone : s.phase = .done := by simpa [digestReadable, digestValid] using hdone
  have hp : s.phase ≠ .active := by simp [hdone]
  have hq : s.seq = .idle := seq_idle_of_blockInv hinv hp
  obtain ⟨-, rfl⟩ | ⟨w, rest, -, -, hx⟩ | ⟨w, rest, -, hbusy, -⟩ | ⟨rest, hi, -⟩ | ⟨p, rest, hi, rfl⟩ |
    ⟨w, i, rest, -, -, hx⟩ := step_cases hstep
  · rfl
  · exact exec_digest_of_inactive (s := { s with inputs := rest }) hp hx
  · exact absurd hq hbusy
  · simp [resetRequested, hi] at hr
  · have hrst : p.rst = false := by simpa [resetRequested, hi] using hr
    exact clockCycle_digest_of_idle (s := { s with inputs := rest }) hrst hq
  · exact exec_digest_of_inactive (s := { s with inputs := rest }) hp hx

/-- Settles O36: the byte is moved to where `acc` has no ones, and without a common one `|`, `+` and `^` agree. -/
theorem placementsAgree : Obligations.PlacementsAgree := by
  unfold Obligations.PlacementsAgree
  intro acc fill b h
  have hdisjoint := and_shiftLeft_eq_zero h (b.setWidth 64)
  exact ⟨(BitVec.add_eq_or_of_and_eq_zero _ _ hdisjoint).symm, or_eq_xor_of_and_eq_zero _ _ hdisjoint⟩

/-- Settles O50: by induction over the message the bytes split into whole lanes, already sent, and the part in `acc`. -/
theorem positionFollowsMessage : Obligations.PositionFollowsMessage := by
  unfold Obligations.PositionFollowsMessage
  intro m s
  obtain ⟨whole, part, hm, hpos⟩ := injectBytes_position m (startDigest_position s)
  obtain rfl : whole ++ part = m := by simpa using hm
  obtain ⟨-, herr, -, hdigest, -, -, -⟩ := injectBytes_frame (whole ++ part) (startDigest s)
  have hpart : part.length < 8 := hpos.fill ▸ BitVec.isLt _
  have haligned := hpos.aligned
  have hlength : (whole ++ part).length = whole.length + part.length := List.length_append
  have hwhole : 8 * ((whole ++ part).length / 8) = whole.length := by omega
  refine ⟨_, runCommands_absorbs (whole ++ part) (s := startDigest s) rfl, hpos.active, ?_, ?_, ?_, hdigest, herr⟩
  · rw [hpos.lanes]
    omega
  · rw [hpos.fill]
    omega
  · rw [hpos.acc, hwhole, List.drop_left]

/-- Settles O54: a request from outside is one event at the port, and an idle block's cycle without a command is none. -/
theorem onlyCommandsAndResetWriteRegisters : Obligations.OnlyCommandsAndResetWriteRegisters := by
  unfold Obligations.OnlyCommandsAndResetWriteRegisters
  intro s t rest h
  refine ⟨fun w hi => ?_, fun p hi hq hr hv => ?_⟩
  · obtain ⟨e, c, rfl⟩ := step_request hi h
    rfl
  · rw [step_clock hi, clockCycle_of_idle_quiet (s := { s with inputs := rest }) hr hv hq] at h
    cases h
    rfl

/-- Settles O31: the reset state's fields, and the two outputs derived from them. -/
theorem resetValues : Obligations.ResetValues := by
  unfold Obligations.ResetValues
  exact ⟨rfl, rfl, rfl, rfl, rfl, rfl, rfl, rfl, rfl, rfl, rfl⟩

/-- Settles O33: both outputs compare one register, and no instruction run as a whole moves the sequencer. -/
theorem derivedOutputs : Obligations.DerivedOutputs := by
  unfold Obligations.DerivedOutputs
  intro s
  refine ⟨by simp [digestValid], by simp [busy], fun i t h => ?_⟩
  rw [busy, busy, exec_seq h]

/-- Settles O42: a reset taken in the reset state leaves it as it is, so it meets the block's invariant; EMPTY claims nothing
of the collaborator and expects nothing of the empty trace. -/
theorem resetMeetsInvariants : Obligations.ResetMeetsInvariants := by
  unfold Obligations.ResetMeetsInvariants
  have hlink : LinkInv State.reset := Or.inl rfl
  have hdiscipline : DisciplineInv State.reset := ⟨.start, rfl, fun _ h => nomatch h⟩
  exact ⟨takeReset_blockInv State.reset, hlink, hdiscipline⟩

end

section
/-!
PROOF. The sequencer run to the end of a command (R92, R150, R151): cycles without a command or a reset only move it on, a
placement and the padding take as many of them as they place bytes and send lanes, and what they leave is what the command
leaves when run as a whole.
-/

namespace Sys2Proof.Sequencer

open Sys2Proof.Machine Sys2Proof.Safety Sys2Proof.WholeDigest Sys2Proof.Registers

theorem injectByte_seq (b : Byte) (s : State) : (injectByte b s).seq = s.seq := by
  obtain ⟨-, -, -, -, hseq, -, -⟩ := injectByte_frame b s
  exact hseq

theorem injectByte_fin (b : Byte) (s : State) : (injectByte b s).fin = s.fin := by
  obtain ⟨-, -, -, -, -, hfin, -⟩ := injectByte_frame b s
  exact hfin

/-! ### Cycles in which nothing is presented -/

/-- A cycle with no command and no reset in which the collaborator takes the block's request. -/
def quietStep (s : State) : State := microStep quietPins s

theorem quietStep_idle {s : State} (h : s.seq = .idle) : quietStep s = s := microStep_idle quietPins h

/-- Without a command the pins do not reach the micro-step. -/
theorem microStep_eq_quietStep {p : Pins} (hv : p.cmdValid = false) (s : State) : microStep p s = quietStep s := by
  by_cases hq : s.seq = .idle
  · rw [quietStep_idle hq, microStep_idle p hq, hv]
    rfl
  · exact microStep_busy p quietPins s hq

/-- A cycle with no command and no reset is a quiet step, or a stall (R151). -/
theorem clockCycle_quiet {p : Pins} (hr : p.rst = false) (hv : p.cmdValid = false) (s : State) :
    clockCycle p s = quietStep s ∨ (p.spReady = false ∧ clockCycle p s = s) := by
  obtain ⟨h, -⟩ | ⟨-, -, hs, -, e⟩ | ⟨-, h, -⟩ | ⟨-, -, e⟩ := clockCycle_cases p s
  · simp [hr] at h
  · exact .inr ⟨hs, e⟩
  · simp [hv] at h
  · exact .inl (e.trans (microStep_eq_quietStep hv s))

theorem runCycles_cons (p : Pins) (ps : List Pins) (s : State) :
    runCycles (p :: ps) s = runCycles ps (clockCycle p s) := rfl

/-- Such cycles are quiet steps, at least as many as there are cycles in which the collaborator is ready. -/
theorem runCycles_quiet (ps : List Pins) (h : ∀ p ∈ ps, p.rst = false ∧ p.cmdValid = false) (s : State) :
    ∃ k, (ps.filter (fun p => p.spReady)).length ≤ k ∧ runCycles ps s = quietStep^[k] s := by
  induction ps generalizing s with
  | nil => exact ⟨0, le_rfl, rfl⟩
  | cons p ps ih =>
    obtain ⟨⟨hr, hv⟩, hps⟩ := List.forall_mem_cons.1 h
    obtain ⟨k, hk, e⟩ := ih hps (clockCycle p s)
    rw [runCycles_cons, e]
    obtain hstep | ⟨hs, hstep⟩ := clockCycle_quiet hr hv s <;> rw [hstep]
    · refine ⟨k + 1, ?_, rfl⟩
      rw [List.filter_cons]
      split
      · exact Nat.succ_le_succ hk
      · exact Nat.le_succ_of_le hk
    · exact ⟨k, by simpa [hs] using hk, rfl⟩

/-- An idle block reached stays as it is. -/
theorem quietStep_iterate_of_le {s t : State} {n k : Nat} (h : quietStep^[n] s = t) (hq : t.seq = .idle) (hk : n ≤ k) :
    quietStep^[k] s = t := by
  rw [← Nat.sub_add_cancel hk, Function.iterate_add_apply, h]
  exact Function.iterate_fixed (quietStep_idle hq) _

/-! ### The states of the sequencer (R92) -/

/-- The block with its sequencer in state `q`. -/
def atSeq (q : Seq) (s : State) : State := { s with seq := q }

/-- The block is in the state its sequencer is in. -/
theorem atSeq_of_eq {q : Seq} {s : State} (h : s.seq = q) : atSeq q s = s := by rw [← h]; rfl

theorem quietStep_adv0 (s : State) : quietStep (atSeq .adv0 s) = atSeq .adv1 (spAdvance s) := rfl
theorem quietStep_adv1 (s : State) : quietStep (atSeq .adv1 s) = atSeq .adv2 (spAdvance s) := rfl
theorem quietStep_adv2 (s : State) : quietStep (atSeq .adv2 s) = atSeq .adv3 (spAdvance s) := rfl
theorem quietStep_adv3 (s : State) : quietStep (atSeq .adv3 s) = atSeq .reinit (spAdvance s) := rfl
theorem quietStep_reinit (s : State) :
    quietStep (atSeq .reinit s) = atSeq (seqAfterByte s.fin) { spInit false s with lanes := 0 } := rfl

/-- EMIT sends the lane; one that is not the block's last ends the placement. -/
theorem quietStep_emit {s : State} (h : s.lanes ≠ 16) : quietStep (atSeq .emit s) =
    atSeq (seqAfterByte s.fin) { spAbsorbLane s.acc s with acc := 0, fill := 0, lanes := s.lanes + 1 } := if_neg h

/-- The block's last lane is followed by its transition. -/
theorem quietStep_emit_last {s : State} (h : s.lanes = 16) : quietStep (atSeq .emit s) =
    atSeq .adv0 { spAbsorbLane s.acc s with acc := 0, fill := 0 } := if_pos h

/-- ADV0 to ADV3 and REINIT are the block transition (R82). -/
theorem transition_completes (s : State) : quietStep^[5] (atSeq .adv0 s) =
    atSeq (seqAfterByte s.fin) { blockTransition s with lanes := 0 } := by
  simp only [Function.iterate_succ_apply, Function.iterate_zero_apply, quietStep_adv0, quietStep_adv1, quietStep_adv2,
    quietStep_adv3, quietStep_reinit, blockTransition, spAdvance_fin]

/-! ### A placement (R82, R92) -/

/-- The cycles that follow a placement: EMIT when it completes a lane, and the transition when that is the 17th. -/
def flushCycles (s : State) : Nat := if s.fill = 7 then if s.lanes = 16 then 6 else 1 else 0

theorem flushCycles_le (s : State) : flushCycles s ≤ 6 := by
  unfold flushCycles
  split_ifs <;> decide

/-- A placement and the cycles that follow it are the normal byte path. -/
theorem place_completes (b : Byte) {s : State} (hq : s.seq = seqAfterByte s.fin) :
    quietStep^[flushCycles s] (place b s) = injectByte b s := by
  rw [← atSeq_of_eq (show (injectByte b s).seq = _ from (injectByte_seq b s).trans hq)]
  by_cases h7 : s.fill = 7
  · have hplace : place b s = atSeq .emit { s with acc := placeByte s.acc 7 b } := place_full b s h7
    rw [hplace]
    by_cases h16 : s.lanes = 16
    · rw [flushCycles, if_pos h7, if_pos h16, injectByte_block b s h7 h16, Function.iterate_succ_apply,
        quietStep_emit_last (s := { s with acc := placeByte s.acc 7 b }) h16, transition_completes]
      rfl
    · rw [flushCycles, if_pos h7, if_neg h16, injectByte_lane b s h7 h16, Function.iterate_one,
        quietStep_emit (s := { s with acc := placeByte s.acc 7 b }) h16]
      rfl
  · rw [flushCycles, if_neg h7, injectByte_place b s h7, Function.iterate_zero_apply]
    exact place_within b s h7

/-! ### The padding (R84, R87, R92) -/

/-- In PADZ, before the block's last byte, the next cycles are one byte through the byte path. -/
theorem padz_completes {s : State} (hq : s.seq = .padz) (hfin : s.fin = true) (hlast : ¬ (s.fill = 7 ∧ s.lanes = 16)) :
    quietStep^[flushCycles s + 1] s = injectByte 0x00 s := by
  have hstep : quietStep s = place 0x00 s := by simp only [quietStep, microStep, hq, if_neg hlast]
  rw [Function.iterate_succ_apply, hstep]
  exact place_completes 0x00 (by rw [hq, hfin]; rfl)

/-- The block's last byte is at position 7 of lane 16. -/
theorem last_of_position {fill : BitVec 3} {lanes : BitVec 5} (hl : lanes.toNat < 17)
    (h : 135 ≤ fill.toNat + 8 * lanes.toNat) : fill = 7 ∧ lanes = 16 := by
  have hf := fill.isLt
  exact ⟨BitVec.eq_of_toNat_eq (show fill.toNat = 7 by omega),
    BitVec.eq_of_toNat_eq (show lanes.toNat = 16 by omega)⟩

/-- Before the block's last byte the byte path moves the position by one byte, and EMIT takes a cycle when that completes a
lane. -/
theorem injectByte_moves (b : Byte) {s : State} (hl : s.lanes.toNat < 17) (hlast : ¬ (s.fill = 7 ∧ s.lanes = 16)) :
    (injectByte b s).fill.toNat + 8 * (injectByte b s).lanes.toNat = s.fill.toNat + 8 * s.lanes.toNat + 1 ∧
      (injectByte b s).lanes.toNat = s.lanes.toNat + flushCycles s := by
  by_cases h7 : s.fill = 7
  · have h16 : s.lanes ≠ 16 := fun e => hlast ⟨h7, e⟩
    have hlt := lanes_lt_of_ne hl h16
    simp only [injectByte_lane b s h7 h16, flushCycles, if_neg h16, lanes_succ _ hlt, h7]
    simp
    omega
  · simp only [injectByte_place b s h7, flushCycles, if_neg h7, fill_succ _ h7]
    omega

/-- The padding's zeros up to byte 135 take a cycle for each byte and one for each lane they complete; LAST80 follows. -/
theorem injectZeros_completes (n : Nat) {s : State} (hq : s.seq = .padz) (hfin : s.fin = true)
    (hl : s.lanes.toNat < 17) (hn : s.fill.toNat + 8 * s.lanes.toNat + n = 135) :
    quietStep^[n + (16 - s.lanes.toNat) + 1] s = atSeq .last80 (injectZeros n s) := by
  induction n generalizing s with
  | zero =>
    have hlast := last_of_position (fill := s.fill) hl (by omega)
    rw [hlast.2, show 0 + (16 - (16 : BitVec 5).toNat) + 1 = 1 from rfl, Function.iterate_one, injectZeros_zero]
    simp only [quietStep, microStep, hq, if_pos hlast, atSeq]
  | succ n ih =>
    have hlast : ¬ (s.fill = 7 ∧ s.lanes = 16) := by
      rintro ⟨h7, h16⟩
      simp [h7, h16] at hn
    obtain ⟨hmoved, hlanes⟩ := injectByte_moves 0x00 hl hlast
    have hlt := injectByte_lanes_lt 0x00 hl
    have hcycles : n + 1 + (16 - s.lanes.toNat) + 1 =
        (n + (16 - (injectByte 0x00 s).lanes.toNat) + 1) + (flushCycles s + 1) := by omega
    rw [hcycles, Function.iterate_add_apply, padz_completes hq hfin hlast, injectZeros_succ]
    exact ih ((injectByte_seq _ s).trans hq) ((injectByte_fin _ s).trans hfin) hlt (by omega)

theorem quietStep_pad1 (s : State) : quietStep (atSeq .pad1 s) = place Config.padStart s := rfl
theorem quietStep_last80 (s : State) :
    quietStep (atSeq .last80 s) = atSeq .sq0 (spAbsorbLane (s.acc + markerTop Config.padEnd) s) := rfl
theorem quietStep_last81 (s : State) :
    quietStep (atSeq .last81 s) = atSeq .sq0 (spAbsorbLane (s.acc + markerTop Config.padBoth) s) := rfl

/-- Where a FINALIZE that has been accepted begins to pad (R92). -/
def padState (s : State) : Seq := if s.fill = 7 ∧ s.lanes = 16 then .last81 else .pad1

/-- The padding, from its first state in the sequencer to SQ0, is FINALIZE's, in at most 153 cycles (R85, R150). -/
theorem padBlock_completes {s : State} (hq : s.seq = .padz) (hfin : s.fin = true) (hl : s.lanes.toNat < 17) :
    ∃ k ≤ 153, quietStep^[k] (atSeq (padState s) s) = atSeq .sq0 (padBlock s) := by
  by_cases hlast : s.fill = 7 ∧ s.lanes = 16
  · have hone : bytesToPad s.fill s.lanes = 1 := by rw [hlast.1, hlast.2]; rfl
    refine ⟨1, by decide, ?_⟩
    simp only [padState, if_pos hlast, Function.iterate_one, quietStep_last81, padBlock, if_pos hone]
  · have hone : bytesToPad s.fill s.lanes ≠ 1 := fun e =>
      hlast (last_of_position hl (by simp only [bytesToPad, Config.rateBytes] at e; omega))
    obtain ⟨n, hn⟩ : ∃ n, n = (bytesToPad s.fill s.lanes - 2).toNat := ⟨_, rfl⟩
    have hposition : s.fill.toNat + 8 * s.lanes.toNat + n = 134 := by
      have hlt : ¬ 135 ≤ s.fill.toNat + 8 * s.lanes.toNat := fun h => hlast (last_of_position hl h)
      simp only [bytesToPad, Config.rateBytes] at hn
      omega
    obtain ⟨hmoved, hlanes⟩ := injectByte_moves Config.padStart hl hlast
    have hzeros := injectZeros_completes n (s := injectByte Config.padStart s) ((injectByte_seq _ s).trans hq)
      ((injectByte_fin _ s).trans hfin) (injectByte_lanes_lt _ hl) (by omega)
    refine ⟨1 + (n + (16 - (injectByte Config.padStart s).lanes.toNat) + 1) + flushCycles s + 1, by omega, ?_⟩
    rw [padState, if_neg hlast, Function.iterate_succ_apply, quietStep_pad1, Function.iterate_add_apply,
      place_completes Config.padStart (by rw [hq, hfin]; rfl), Function.iterate_add_apply, hzeros, Function.iterate_one,
      quietStep_last80]
    simp only [padBlock, if_neg hone, hn]

/-! ### The end of FINALIZE (R84, R92) -/

/-- Writing the four quarters of `digest` one by one assembles it (R68). -/
theorem setQuarter_all (z0 z1 z2 z3 : Lane) (d : Digest) :
    setQuarter 3 z3 (setQuarter 2 z2 (setQuarter 1 z1 (setQuarter 0 z0 d))) = assembleDigest z0 z1 z2 z3 := by
  apply BitVec.eq_of_getLsbD_eq
  intro i hi
  simp only [setQuarter, assembleDigest, BitVec.getLsbD_append, BitVec.getLsbD_extractLsb']
  grind

theorem quietStep_sq0 (s : State) : quietStep (atSeq .sq0 s) = atSeq .sq1 (squeezeInto 0 s) := rfl
theorem quietStep_sq1 (s : State) : quietStep (atSeq .sq1 s) = atSeq .sq2 (squeezeInto 1 s) := rfl
theorem quietStep_sq2 (s : State) : quietStep (atSeq .sq2 s) = atSeq .sq3 (squeezeInto 2 s) := rfl
theorem quietStep_sq3 (s : State) : quietStep (atSeq .sq3 s) =
    atSeq .idle { clearData (squeezeInto 3 s) with fin := false, phase := .done } := rfl

/-- SQ0 to SQ3 are FINALIZE's end, and mark it as over. -/
theorem squeezeDigest_completes (s : State) :
    quietStep^[4] (atSeq .sq0 s) = atSeq .idle { squeezeDigest s with fin := false } := by
  simp only [Function.iterate_succ_apply, Function.iterate_zero_apply, quietStep_sq0, quietStep_sq1, quietStep_sq2,
    quietStep_sq3, squeezeDigest, clearData, squeezeInto, setQuarter_all]
  rfl

/-- What FINALIZE leaves does not depend on the sequencer, and it leaves the sequencer alone. -/
theorem finalize_control (q : Seq) (f : Bool) {s : State} (hl : s.lanes.toNat < 17) (hz : upperBytesZero s) :
    squeezeDigest (padBlock { s with seq := q, fin := f }) = { squeezeDigest (padBlock s) with seq := q, fin := f } := by
  obtain ⟨a, ha⟩ := padBlock_eq s hl hz
  obtain ⟨a', ha'⟩ := padBlock_eq { s with seq := q, fin := f } hl hz
  rw [ha, ha', absorbLanes_eq, absorbLanes_eq]
  rfl

/-- FINALIZE in the sequencer leaves what FINALIZE leaves as a whole, at most 157 cycles after its acceptance (R150). -/
theorem finalize_completes {s : State} (hq : s.seq = .idle) (hfin : s.fin = false) (hl : s.lanes.toNat < 17)
    (hz : upperBytesZero s) :
    ∃ k ≤ 157, quietStep^[k] { s with fin := true, seq := padState s } = squeezeDigest (padBlock s) := by
  obtain ⟨k, hk, hpad⟩ := padBlock_completes (s := { s with seq := .padz, fin := true }) rfl rfl hl
  obtain ⟨-, -, hseq, hfin', -⟩ := finalize_frame s
  refine ⟨4 + k, by omega, ?_⟩
  calc quietStep^[4 + k] { s with fin := true, seq := padState s }
      = quietStep^[4] (atSeq .sq0 (padBlock { s with seq := .padz, fin := true })) := by
        rw [Function.iterate_add_apply, ← hpad]
        rfl
    _ = { squeezeDigest (padBlock s) with seq := s.seq, fin := s.fin } := by
        rw [squeezeDigest_completes, finalize_control .padz true hl hz, hq, hfin]
        rfl
    _ = squeezeDigest (padBlock s) := by rw [← hseq, ← hfin']

/-! ### The acceptance of a command (R72, R92) -/

/-- Accepting a command word is running its command as a whole, but for the byte path and FINALIZE, which take cycles. -/
theorem acceptCommand_exec (w : CommandWord) (s : State) :
    exec (decodeCommand w) s = .next (acceptCommand w s) ∨
    (∃ b, acceptCommand w s = place b s ∧ exec (decodeCommand w) s = .next (injectByte b s)) ∨
    (acceptCommand w s = { s with fin := true, seq := padState s } ∧
      exec (decodeCommand w) s = .next (squeezeDigest (padBlock s))) := by
  unfold acceptCommand decodeCommand
  split
  · exact .inl rfl
  split
  · exact .inl rfl
  split
  · split
    next ha => exact .inr (.inl ⟨_, rfl, exec_absorb_active ha⟩)
    next hn => exact .inl (exec_absorb_inactive hn)
  · split
    next ha => exact .inr (.inr ⟨rfl, exec_finalize_active ha⟩)
    next hn => exact .inl (exec_finalize_inactive hn)

/-- A NEW that waits for its INIT(1) has written its registers, and is complete when that is taken (R92, log 8). -/
theorem init1_completes {s : State} (hq : s.seq = .idle) : quietStep (atSeq .init1 (openDigest s)) = startDigest s :=
  (show _ = atSeq .idle (startDigest s) from rfl).trans (atSeq_of_eq hq)

/-- The cycle that presents a command word accepts it, or holds the INIT(1) of a NEW. -/
theorem clockCycle_presented {p : Pins} {s : State} (hr : p.rst = false) (hv : p.cmdValid = true) (hq : s.seq = .idle) :
    clockCycle p s = acceptCommand p.cmd s ∨
    (commandOp p.cmd = 0b01#2 ∧ clockCycle p s = atSeq .init1 (openDigest s)) := by
  obtain ⟨h, -⟩ | ⟨-, -, -, hbusy, -⟩ | ⟨-, -, hop, -, -, e⟩ | ⟨-, -, e⟩ := clockCycle_cases p s
  · simp [hr] at h
  · exact absurd hq hbusy
  · exact .inr ⟨hop, e⟩
  · exact .inl (by rw [e, microStep_idle p hq, if_pos hv])

/-- At most 157 cycles after it is accepted, an idle block's command has left what it leaves as a whole (R92, R150). -/
theorem command_completes {p : Pins} {s t : State} (h : BlockInv s) (hq : s.seq = .idle) (hr : p.rst = false)
    (hv : p.cmdValid = true) (hx : exec (decodeCommand p.cmd) s = .next t) :
    ∃ k ≤ 157, quietStep^[k] (clockCycle p s) = t := by
  obtain ⟨hl, -, hfit⟩ := h
  obtain ⟨hfin, hz, -⟩ := (registersFit_idle hq).1 hfit
  obtain e | ⟨hop, e⟩ := clockCycle_presented hr hv hq <;> rw [e]
  · obtain hdone | ⟨b, hplace, hbyte⟩ | ⟨hpad, hfinalize⟩ := acceptCommand_exec p.cmd s
    · cases hdone.symm.trans hx
      exact ⟨0, by decide, rfl⟩
    · cases hbyte.symm.trans hx
      refine ⟨flushCycles s, (flushCycles_le s).trans (by decide), ?_⟩
      rw [hplace, place_completes b (by rw [hq, hfin]; rfl)]
    · cases hfinalize.symm.trans hx
      rw [hpad]
      exact finalize_completes hq hfin hl hz
  · have hnew : exec (decodeCommand p.cmd) s = .next (startDigest s) := by
      simp [decodeCommand, hop, exec, execNew]
    cases hnew.symm.trans hx
    exact ⟨1, by decide, init1_completes hq⟩

end Sys2Proof.Sequencer
end

section
/-!
PROOF. The events of a whole digest (R86, R90): those of the bytes whose lanes have left the block, and those of the padding
and the four SQUEEZE that complete it.
-/

namespace Sys2Proof.WholeDigest

open Sys2Proof.Machine Sys2Proof.Safety

/-! ### The events of the bytes absorbed (R90) -/

/-- The events of the whole lanes of a byte sequence: its whole blocks, then the lanes of the block begun. -/
def laneEvents (bs : List Byte) : List Event :=
  (List.range (bs.length / 136)).flatMap (blockEvents bs) ++
    ((lanesOf bs).drop (17 * (bs.length / 136))).map .absorbLane

/-- A whole block's events are those of its 17 lanes, wherever the sequence goes on. -/
theorem blockEvents_append {a : List Byte} {j n : Nat} (hn : a.length = 8 * n) (h : 136 * (j + 1) ≤ a.length)
    (b : List Byte) : blockEvents (a ++ b) j = blockEvents a j := by
  have hlanes : (lanesOf a).length = n := by rw [length_lanesOf]; omega
  rw [blockEvents, blockEvents, ← lanesOf_block (a ++ b) (by rw [List.length_append]; omega), ← lanesOf_block a h,
    lanesOf_append hn, List.drop_append_of_le_length (by omega),
    List.take_append_of_le_length (by rw [List.length_drop]; omega)]

theorem wholeBlocks_append {a : List Byte} {n : Nat} (hn : a.length = 8 * n) (b : List Byte) :
    (List.range (a.length / 136)).flatMap (blockEvents (a ++ b)) =
      (List.range (a.length / 136)).flatMap (blockEvents a) := by
  refine List.flatMap_congr fun j hj => blockEvents_append hn ?_ b
  have := List.mem_range.1 hj
  omega

/-- The last block of a sequence that ends inside it. -/
theorem lastBlock_append {a b : List Byte} {n : Nat} (hn : a.length = 8 * n)
    (hab : (a ++ b).length = 136 * (a.length / 136 + 1)) :
    blockLanes (a ++ b) (a.length / 136) = (lanesOf a).drop (17 * (a.length / 136)) ++ lanesOf b := by
  have hlanes : (lanesOf a).length = n := by rw [length_lanesOf]; omega
  have htotal : (lanesOf (a ++ b)).length = 17 * (a.length / 136 + 1) := by rw [length_lanesOf, hab]; omega
  rw [← lanesOf_block _ hab.ge, List.take_of_length_le (by rw [List.length_drop, htotal]; omega), lanesOf_append hn,
    List.drop_append_of_le_length (by omega)]

/-- A lane inside a block is one event. -/
theorem laneEvents_lane {a lane : List Byte} {n : Nat} (hn : a.length = 8 * n) (hlane : lane.length = 8)
    (h16 : n % 17 ≠ 16) : laneEvents (a ++ lane) = laneEvents a ++ [.absorbLane (le64 lane)] := by
  have hblocks : (a ++ lane).length / 136 = a.length / 136 := by rw [List.length_append]; omega
  have hlanes : (lanesOf a).length = n := by rw [length_lanesOf]; omega
  rw [laneEvents, hblocks, wholeBlocks_append hn, lanesOf_append hn, lanesOf_lane hlane,
    List.drop_append_of_le_length (by omega), List.map_append, ← List.append_assoc]
  rfl

/-- The 17th lane is followed by the block transition. -/
theorem laneEvents_block {a lane : List Byte} {n : Nat} (hn : a.length = 8 * n) (hlane : lane.length = 8)
    (h16 : n % 17 = 16) : laneEvents (a ++ lane) = laneEvents a ++ [.absorbLane (le64 lane)] ++
      [.advance, .advance, .advance, .advance, .init false] := by
  have hlength : (a ++ lane).length = 136 * (a.length / 136 + 1) := by rw [List.length_append]; omega
  have hblocks : (a ++ lane).length / 136 = a.length / 136 + 1 := by omega
  have htotal : (lanesOf (a ++ lane)).length ≤ 17 * (a.length / 136 + 1) := by rw [length_lanesOf]; omega
  rw [laneEvents, hblocks, List.range_succ, List.flatMap_append, wholeBlocks_append hn, List.flatMap_singleton,
    List.drop_eq_nil_of_le htotal, blockEvents, lastBlock_append hn hlength, lanesOf_lane hlane, laneEvents]
  simp

/-- The bytes of an unfinished lane have no event. -/
theorem laneEvents_part {a part : List Byte} {n : Nat} (hn : a.length = 8 * n) (hpart : part.length < 8) :
    laneEvents (a ++ part) = laneEvents a := by
  have hblocks : (a ++ part).length / 136 = a.length / 136 := by rw [List.length_append]; omega
  have hnone : lanesOf part = [] := List.eq_nil_of_length_eq_zero (by rw [length_lanesOf]; omega)
  rw [laneEvents, hblocks, wholeBlocks_append hn, lanesOf_append hn, hnone, List.append_nil, laneEvents]

/-- The events of a whole digest are those of the bytes that have left as lanes, of the lanes that the padding completes, and
of the squeeze. -/
theorem digestEvents_append {whole part : List Byte} {n : Nat} (hn : whole.length = 8 * n) (hpart : part.length < 8)
    (zs : List Lane) : digestEvents (whole ++ part) zs =
      .init true :: laneEvents whole ++ (lanesOf (part ++ padding (whole ++ part).length)).map .absorbLane ++
        zs.map .squeeze := by
  have hblocks : (whole ++ part).length / 136 = whole.length / 136 := by rw [List.length_append]; omega
  have hpadded : paddedMessage (whole ++ part) = whole ++ (part ++ padding (whole ++ part).length) :=
    List.append_assoc ..
  have hlength := length_paddedMessage (whole ++ part)
  rw [hpadded, hblocks] at hlength
  rw [digestEvents, hblocks, hpadded, wholeBlocks_append hn, lastBlock_append hn hlength, laneEvents]
  simp

/-! ### The trace of a run (R90) -/

theorem Position.part_lt {whole part : List Byte} {s : State} (h : Position whole part s) : part.length < 8 :=
  h.fill ▸ s.fill.isLt

theorem Position.whole_length {whole part : List Byte} {s : State} (h : Position whole part s) :
    whole.length = 8 * (whole.length / 8) := by
  have := h.aligned
  omega

/-- The byte path issues the events of the bytes absorbed (R82). -/
theorem injectByte_events (b : Byte) {whole part : List Byte} {s : State} {before : List Event}
    (hp : Position whole part s) (h : s.trace = before ++ laneEvents (whole ++ part)) :
    (injectByte b s).trace = before ++ laneEvents (whole ++ part ++ [b]) := by
  have hpart := hp.part_lt
  have hlanes := hp.lanes
  have hn := hp.whole_length
  rw [laneEvents_part hn hpart] at h
  rw [List.append_assoc]
  by_cases h7 : s.fill = 7
  · have hseven : part.length = 7 := by rw [← hp.fill, h7]; rfl
    have hlane : (part ++ [b]).length = 8 := by simp [hseven]
    have hplace : placeByte s.acc 7 b = le64 (part ++ [b]) := by rw [hp.acc, placeByte_le64 part 7 b hseven.symm]
    by_cases h16 : s.lanes = 16
    · have e16 : s.lanes.toNat = 16 := by rw [h16]; rfl
      rw [injectByte_block b s h7 h16, laneEvents_block hn hlane (by omega), blockTransition_trace, spAbsorbLane_trace, h,
        hplace]
      simp
    · have hlt := lanes_lt_of_ne hp.lanes_lt h16
      rw [injectByte_lane b s h7 h16, laneEvents_lane hn hlane (by omega), spAbsorbLane_trace, h, hplace]
      simp
  · have hlt := fill_lt_seven h7
    rw [hp.fill] at hlt
    rw [injectByte_place b s h7, laneEvents_part hn (by simp; omega), h]

/-- So does a message's. -/
theorem injectBytes_events (m : List Byte) {whole part : List Byte} {s : State} {before : List Event}
    (hp : Position whole part s) (h : s.trace = before ++ laneEvents (whole ++ part)) :
    (injectBytes m s).trace = before ++ laneEvents (whole ++ part ++ m) := by
  induction m generalizing whole part s with
  | nil => simpa using h
  | cons b m ih =>
    obtain ⟨whole', part', e, hp'⟩ := injectByte_position b hp
    have hb := injectByte_events b hp h
    rw [← e] at hb
    rw [injectBytes_cons, ih hp' hb, e]
    simp

/-- FINALIZE completes the events of the digest (R84, R90). -/
theorem squeezeDigest_events {whole part : List Byte} {s : State} {before : List Event} (hp : Position whole part s)
    (h : s.trace = before ++ .init true :: laneEvents (whole ++ part)) :
    ∃ z0 z1 z2 z3, (squeezeDigest (padBlock s)).trace = before ++ digestEvents (whole ++ part) [z0, z1, z2, z3] ∧
      (squeezeDigest (padBlock s)).digest = assembleDigest z0 z1 z2 z3 := by
  have hpart := hp.part_lt
  have hlanes := hp.lanes
  have hn := hp.whole_length
  have hL : (whole ++ part).length % 136 = 8 * s.lanes.toNat + part.length := by rw [List.length_append]; omega
  obtain ⟨a, ha⟩ := padBlock_eq s hp.lanes_lt hp.upperBytesZero
  have hpad : (padBlock s).trace = before ++ .init true :: laneEvents whole ++
      (lanesOf (part ++ padding (whole ++ part).length)).map .absorbLane := by
    rw [ha, ← finalLanes_le64 part s.fill s.lanes _ hp.fill hp.lanes_lt hL, ← hp.acc, absorbLanes_eq, h,
      laneEvents_part hn hpart]
  refine ⟨_, _, _, _, ?_, rfl⟩
  rw [digestEvents_append hn hpart]
  simp [squeezeDigest, hpad]

/-- The whole digest's events, after those that the port had carried (R90). -/
theorem keccak256_events (m : List Byte) (s : State) :
    ∃ z0 z1 z2 z3, (squeezeDigest (padBlock (injectBytes m (startDigest s)))).trace =
        s.trace ++ digestEvents m [z0, z1, z2, z3] ∧
      (squeezeDigest (padBlock (injectBytes m (startDigest s)))).digest = assembleDigest z0 z1 z2 z3 := by
  have hstart := startDigest_position s
  obtain ⟨whole, part, hm, hp⟩ := injectBytes_position m hstart
  have hevents := injectBytes_events m (before := s.trace ++ [.init true]) hstart (by simp [laneEvents, lanesOf])
  rw [← hm, List.append_assoc] at hevents
  have hdigest := squeezeDigest_events hp hevents
  rw [hm] at hdigest
  exact hdigest

/-- 22 events for each whole block, and 22 for the last one with INIT(1) and the four SQUEEZE (R90). -/
theorem length_digestEvents (m : List Byte) (z0 z1 z2 z3 : Lane) :
    (digestEvents m [z0, z1, z2, z3]).length = 22 * (m.length / 136) + 22 := by
  have hblock (j : Nat) : (blockEvents (paddedMessage m) j).length = 22 := by simp [blockEvents, blockLanes]
  simp [digestEvents, List.length_flatMap, hblock, blockLanes]
  omega

end Sys2Proof.WholeDigest
end

section
/-!
PROOF. The bits of a byte of a lane in which a byte has been placed (R41, R82).
-/

namespace Sys2Proof.PlacedByte

open Sys2Proof.Machine

/-- A lane with zeros from bit `n` up has a zero at every position from there. -/
theorem getLsbD_of_shift_eq_zero {acc : Lane} {n i : Nat} (h : acc >>> n = 0) (hi : n ≤ i) : acc.getLsbD i = false := by
  have := congrArg (BitVec.getLsbD · (i - n)) h
  simpa [Nat.add_sub_cancel' hi] using this

/-- The bits of a byte of a lane in which a byte has been placed. -/
theorem getLsbD_laneByte_placeByte (acc : Lane) (fill : BitVec 3) (b : Byte) (k : Nat) {i : Nat} (hi : i < 8) :
    (laneByte (placeByte acc fill b) k).getLsbD i =
      (acc.getLsbD (8 * k + i) || (decide (8 * k + i < 64) && !decide (8 * k + i < 8 * fill.toNat) &&
        b.getLsbD (8 * k + i - 8 * fill.toNat))) := by
  have hin : 8 * k + i - 8 * fill.toNat < 64 ∨ ¬ 8 * k + i < 64 := by omega
  simp only [laneByte, placeByte, BitVec.getLsbD_extractLsb', BitVec.getLsbD_or, BitVec.getLsbD_shiftLeft,
    BitVec.getLsbD_setWidth]
  obtain h | h := hin <;> simp [hi, h]

end Sys2Proof.PlacedByte
end

section
/-! PROOF. The obligations of the memory family (spec/20_memory.md). -/

open Sys2Proof Sys2Proof.Machine Sys2Proof.Safety Sys2Proof.WholeDigest Sys2Proof.Registers Sys2Proof.Sequencer
  Sys2Proof.PlacedByte

/-- Settles O55: stalled cycles leave the block as it is and the others are quiet steps, of which 157 complete any command;
the idle block that they reach stays. -/
theorem stallsOnlyDelayCommands : Obligations.StallsOnlyDelayCommands := by
  unfold Obligations.StallsOnlyDelayCommands
  intro s t w p ps hinv hq hx hr hv hw hps hready
  subst hw
  refine ⟨by simp [cmdReady, busy, hq, hr], ?_⟩
  obtain ⟨n, hn, hdone⟩ := command_completes hinv hq hr hv hx
  obtain ⟨k, hk, hrun⟩ := runCycles_quiet ps hps (clockCycle p s)
  rw [runCycles_cons, hrun]
  exact quietStep_iterate_of_le hdone ((exec_seq hx).trans hq) (by omega)

/-- Settles O35: the bit formula of a placed lane at, below and above `fill`; from `fill` up `acc` has no ones (R26). -/
theorem placedByteStandsAtFill : Obligations.PlacedByteStandsAtFill := by
  unfold Obligations.PlacedByteStandsAtFill
  intro acc fill b h
  have hfill := fill.isLt
  refine ⟨?_, fun k hk => ?_, fun k hk => ?_⟩ <;> apply BitVec.eq_of_getLsbD_eq <;> intro i hi
  · rw [getLsbD_laneByte_placeByte _ _ _ _ hi, getLsbD_of_shift_eq_zero h (by omega)]
    have hin : 8 * fill.toNat + i < 64 := by omega
    simp [hin]
  · rw [getLsbD_laneByte_placeByte _ _ _ _ hi]
    have hbelow : 8 * k + i < 8 * fill.toNat := by omega
    simp [laneByte, hi, hbelow]
  · have habove : 8 ≤ 8 * k + i - 8 * fill.toNat := by omega
    rw [getLsbD_laneByte_placeByte _ _ _ _ hi, getLsbD_of_shift_eq_zero h (by omega), BitVec.getLsbD_of_ge b _ habove]
    simp

/-- Settles O40: a digest byte is a byte of a quarter, and the quarters are the lanes assembled (R29, R43). -/
theorem digestByteOrder : Obligations.DigestByteOrder := by
  unfold Obligations.DigestByteOrder
  intro z j i hi
  obtain ⟨q0, q1, q2, q3⟩ := quarter_assembleDigest (z 0) (z 1) (z 2) (z 3)
  rw [digestByte_quarter _ _ hi]
  fin_cases j
  · exact congrArg (laneByte · i) q0
  · exact congrArg (laneByte · i) q1
  · exact congrArg (laneByte · i) q2
  · exact congrArg (laneByte · i) q3

/-- Settles O53: the run extends the trace by the events of a whole digest, which are 22 for each block. -/
theorem wholeDigestEventCount : Obligations.WholeDigestEventCount := by
  unfold Obligations.WholeDigestEventCount
  intro m s rest hq hi
  obtain ⟨z0, z1, z2, z3, htrace, -⟩ := keccak256_events m { s with inputs := rest }
  refine ⟨_, core_run_keccak256 m hq hi, ?_, ?_, length_paddedMessage m, length_digestEvents m⟩
  · rw [htrace]
    exact ⟨_, rfl⟩
  · rw [htrace, List.length_append, length_digestEvents]

/-- Settles O56: a busy block's request and micro-step do not depend on the command port, and `cmd_ready` is `not busy`. -/
theorem busyBlockIgnoresCommandPort : Obligations.BusyBlockIgnoresCommandPort := by
  unfold Obligations.BusyBlockIgnoresCommandPort
  intro s p p' hbusy hr hs
  have hrequest := pendingRequest_busy p p' s hbusy hr
  refine ⟨by simp [cmdReady, busy, hbusy], ?_, by rw [spReq, spReq, hrequest]⟩
  have hstalled : stalled p s = stalled p' s := by simp only [stalled, spValid, hrequest, hs]
  rw [clockCycle, clockCycle, hr, hstalled, microStep_busy p p' s hbusy]

end

section
/-!
PROOF. The words of the two ports by their fields (R61, R65): a word is its opcode and its data, so the encoder and the
decoder undo one another, and a row of the table is selected by the fields that its mask leaves (R62, R66, R67).
-/

namespace Sys2Proof.Encoding

open Sys2Proof.Machine Sys2Proof.WholeDigest

/-! ### Words and their fields -/

/-- An opcode that is none of the first three is the fourth (R62, R66). -/
theorem op_eq_three : ∀ {op : BitVec 2}, op ≠ 0b00#2 → op ≠ 0b01#2 → op ≠ 0b10#2 → op = 0b11#2 := by decide

theorem commandWord_fields (w : CommandWord) : commandWord (commandOp w) (commandData w) = w :=
  BitVec.extractLsb'_append_extractLsb' (w := 2) (len := 8) (x := w)

theorem requestWord_fields (w : RequestWord) : requestWord (requestOp w) (requestPayload w) = w :=
  BitVec.extractLsb'_append_extractLsb' (w := 2) (len := 64) (x := w)

@[simp] theorem requestOp_requestWord (op : BitVec 2) (payload : BitVec 64) : requestOp (requestWord op payload) = op :=
  BitVec.extractLsb'_append_eq_left

@[simp] theorem requestPayload_requestWord (op : BitVec 2) (payload : BitVec 64) :
    requestPayload (requestWord op payload) = payload :=
  BitVec.extractLsb'_append_eq_right

theorem commandWord_eq {w : CommandWord} {op : BitVec 2} (h : commandOp w = op) : commandWord op (commandData w) = w := by
  rw [← h, commandWord_fields]

theorem requestWord_eq {w : RequestWord} {op : BitVec 2} {payload : BitVec 64} (hop : requestOp w = op)
    (hpayload : requestPayload w = payload) : requestWord op payload = w := by
  rw [← hop, ← hpayload, requestWord_fields]

/-! ### Decoder and encoder (R62, R66, R67) -/

theorem decodeCommand_reserved (d : Byte) : decodeCommand (commandWord 0b00#2 d) = .reserved d := by
  simp [decodeCommand, commandOp_commandWord, commandData_commandWord]

theorem decodeRequest_init (f : Bool) : decodeRequest (requestWord 0b00#2 (if f then 1 else 0)) = .ok (.init f) := by
  cases f <;> simp [decodeRequest]

theorem decodeRequest_absorbLane (l : Lane) : decodeRequest (requestWord 0b01#2 l) = .ok (.absorbLane l) := by
  simp [decodeRequest]

/-- The data of a command word are what is left beside its opcode, so encoding gives the word back. -/
theorem encode_decodeCommand (w : CommandWord) : encode (decodeCommand w) = .command w := by
  unfold decodeCommand
  split_ifs with h0 h1 h2
  · exact congrArg PortWord.command (commandWord_eq h0)
  · exact congrArg PortWord.command (commandWord_eq h1)
  · exact congrArg PortWord.command (commandWord_eq h2)
  · exact congrArg PortWord.command (commandWord_eq (op_eq_three h0 h1 h2))

/-- A payload that the table does not allow is refused, so no bit is lost of a word that decodes. -/
theorem encode_of_decodeRequest {w : RequestWord} {i : Instr} (h : decodeRequest w = .ok i) : encode i = .request w := by
  unfold decodeRequest at h
  split_ifs at h with h0 hp0 hp1 h1 h2 hp hp <;> cases h
  · exact congrArg PortWord.request (requestWord_eq h0 hp0)
  · exact congrArg PortWord.request (requestWord_eq h0 hp1)
  · exact congrArg PortWord.request (requestWord_eq h1 rfl)
  · exact congrArg PortWord.request (requestWord_eq h2 hp)
  · exact congrArg PortWord.request (requestWord_eq (op_eq_three h0 h1 h2) hp)

/-! ### The rows a word selects (R62, R66) -/

/-- The mask of the command rows leaves the opcode (R62). -/
theorem command_and_mask (w : CommandWord) : w &&& 0x300#10 = commandWord (commandOp w) 0 := by
  have hop : commandOp (w &&& 0x300#10) = commandOp w := BitVec.extractLsb'_and.trans BitVec.and_allOnes
  have hdata : commandData (w &&& 0x300#10) = 0 := BitVec.extractLsb'_and.trans BitVec.and_zero
  rw [← commandWord_fields (w &&& 0x300#10), hop, hdata]

/-- So a command row is selected by the opcode alone. -/
theorem selects_commandRow (w : CommandWord) (op : BitVec 2) :
    (PortWord.command w).selects (.command 0x300#10, .command (commandWord op 0)) = (commandOp w == op) := by
  have hinj : commandWord (commandOp w) 0 = commandWord op 0 ↔ commandOp w = op :=
    ⟨fun h => by simpa only [commandOp_commandWord] using congrArg commandOp h, fun h => by rw [h]⟩
  rw [Bool.eq_iff_iff, PortWord.selects, command_and_mask, beq_iff_eq, beq_iff_eq, hinj]

@[simp] theorem command_selects_row_reserved (w : CommandWord) (d : Byte) :
    (PortWord.command w).selects (Instr.row (.reserved d)) = (commandOp w == 0b00#2) := selects_commandRow w 0b00#2
@[simp] theorem command_selects_row_new (w : CommandWord) (d : Byte) :
    (PortWord.command w).selects (Instr.row (.new d)) = (commandOp w == 0b01#2) := selects_commandRow w 0b01#2
@[simp] theorem command_selects_row_absorb (w : CommandWord) (b : Byte) :
    (PortWord.command w).selects (Instr.row (.absorb b)) = (commandOp w == 0b10#2) := selects_commandRow w 0b10#2
@[simp] theorem command_selects_row_finalize (w : CommandWord) (d : Byte) :
    (PortWord.command w).selects (Instr.row (.finalize d)) = (commandOp w == 0b11#2) := selects_commandRow w 0b11#2

/-! A command word selects none of the request rows: the formats differ (R61, R65). -/

@[simp] theorem command_selects_row_init (w : CommandWord) (f : Bool) :
    (PortWord.command w).selects (Instr.row (.init f)) = false := rfl
@[simp] theorem command_selects_row_absorbLane (w : CommandWord) (l : Lane) :
    (PortWord.command w).selects (Instr.row (.absorbLane l)) = false := rfl
@[simp] theorem command_selects_row_advance (w : CommandWord) :
    (PortWord.command w).selects (Instr.row .advance) = false := rfl
@[simp] theorem command_selects_row_squeeze (w : CommandWord) :
    (PortWord.command w).selects (Instr.row .squeeze) = false := rfl

/-- A request word selects a row when its opcode and its payload, each masked, are those of the row. -/
theorem selects_requestRow (w mask pattern : RequestWord) :
    (PortWord.request w).selects (.request mask, .request pattern) = true ↔
      requestOp w &&& requestOp mask = requestOp pattern ∧
        requestPayload w &&& requestPayload mask = requestPayload pattern := by
  have hop : requestOp (w &&& mask) = requestOp w &&& requestOp mask := BitVec.extractLsb'_and
  have hpayload : requestPayload (w &&& mask) = requestPayload w &&& requestPayload mask := BitVec.extractLsb'_and
  rw [PortWord.selects, beq_iff_eq, ← hop, ← hpayload]
  refine ⟨fun h => ⟨by rw [h], by rw [h]⟩, fun ⟨ho, hp⟩ => ?_⟩
  rw [← requestWord_fields (w &&& mask), ho, hp, requestWord_fields]

/-- A mask of ones leaves the field. -/
theorem eq_of_and_allOnes {n : Nat} {x y : BitVec n} (h : x &&& BitVec.allOnes n = y) : x = y :=
  BitVec.and_allOnes.symm.trans h

/-- A payload with no bit above bit 0 is 0 or 1 (R67). -/
theorem payload_bit_zero {x : BitVec 64} (h : x &&& 0xFFFFFFFFFFFFFFFE#64 = 0#64) : x = 0 ∨ x = 1 := by
  have hbit : x = (BitVec.ofBool (x.getLsbD 0)).setWidth 64 :=
    calc x = x &&& (0xFFFFFFFFFFFFFFFE#64 ||| 1#64) := (BitVec.and_allOnes (x := x)).symm
      _ = x &&& 1#64 := by rw [BitVec.and_or_distrib_left, h, BitVec.zero_or]
      _ = (BitVec.ofBool (x.getLsbD 0)).setWidth 64 := BitVec.and_one_eq_setWidth_ofBool_getLsbD
  rw [hbit]
  cases x.getLsbD 0
  · exact .inl rfl
  · exact .inr rfl

/-- Every instruction's row is a row of the table, and the table has no other. -/
theorem wellFormed_iff (w : PortWord) : w.WellFormed = true ↔ ∃ i : Instr, w.selects i.row = true := by
  rw [PortWord.WellFormed, List.any_eq_true]
  constructor
  · rintro ⟨row, hrow, h⟩
    simp only [tableRows, List.mem_cons, List.not_mem_nil, or_false] at hrow
    obtain rfl | rfl | rfl | rfl | rfl | rfl | rfl | rfl := hrow <;> exact ⟨_, h⟩
  · rintro ⟨i, h⟩
    refine ⟨i.row, ?_, h⟩
    cases i <;> simp [tableRows, Instr.row]

/-- A request word that selects a row decodes. -/
theorem decodeRequest_of_selects {w : RequestWord} {i : Instr} (h : (PortWord.request w).selects i.row = true) :
    ∃ i', decodeRequest w = .ok i' := by
  cases i with
  | reserved | new | absorb | finalize => cases h
  | init f =>
    obtain ⟨hop, hpayload⟩ := (selects_requestRow _ _ _).1 h
    have hop : requestOp w = 0b00#2 := eq_of_and_allOnes hop
    obtain hp | hp := payload_bit_zero hpayload
    · exact ⟨.init false, by simp [decodeRequest, hop, hp]⟩
    · exact ⟨.init true, by simp [decodeRequest, hop, hp]⟩
  | absorbLane l =>
    obtain ⟨hop, -⟩ := (selects_requestRow _ _ _).1 h
    have hop : requestOp w = 0b01#2 := eq_of_and_allOnes hop
    exact ⟨.absorbLane (requestPayload w), by simp [decodeRequest, hop]⟩
  | advance =>
    obtain ⟨hop, hpayload⟩ := (selects_requestRow _ _ _).1 h
    have hop : requestOp w = 0b10#2 := eq_of_and_allOnes hop
    have hp : requestPayload w = 0 := eq_of_and_allOnes hpayload
    exact ⟨.advance, by simp [decodeRequest, hop, hp]⟩
  | squeeze =>
    obtain ⟨hop, hpayload⟩ := (selects_requestRow _ _ _).1 h
    have hop : requestOp w = 0b11#2 := eq_of_and_allOnes hop
    have hp : requestPayload w = 0 := eq_of_and_allOnes hpayload
    exact ⟨.squeeze, by simp [decodeRequest, hop, hp]⟩

/-- The word of every instruction selects its row: `RowWord`'s lemmas, one for each row. -/
theorem encode_selects_row (i : Instr) : (encode i).selects i.row = true := by
  cases i with
  | reserved d => exact Laws.RowWord.reserved d
  | new d => exact Laws.RowWord.new d
  | absorb b => exact Laws.RowWord.absorb b
  | finalize d => exact Laws.RowWord.finalize d
  | init f => exact Laws.RowWord.init f
  | absorbLane l => exact Laws.RowWord.absorbLane l
  | advance => exact Laws.RowWord.advance
  | squeeze => exact Laws.RowWord.squeeze

/-- A request word that decodes selects the row of what it decodes to, since it is that instruction's word. -/
theorem selects_row_of_decodeRequest {w : RequestWord} {i : Instr} (h : decodeRequest w = .ok i) :
    (PortWord.request w).selects i.row = true := encode_of_decodeRequest h ▸ encode_selects_row i

/-- The request words of the table are those that decode. -/
theorem wellFormed_request_iff (w : RequestWord) :
    (PortWord.request w).WellFormed = true ↔ ∃ i, decodeRequest w = .ok i := by
  rw [wellFormed_iff]
  exact ⟨fun ⟨_, h⟩ => decodeRequest_of_selects h, fun ⟨i, h⟩ => ⟨i, selects_row_of_decodeRequest h⟩⟩

/-! ### The step of a request word presented from outside the block (R147, log 9) -/

theorem step_request_ok {s : State} {w : RequestWord} {i : Instr} {rest : List Input} (hi : s.inputs = .request w :: rest)
    (hd : decodeRequest w = .ok i) : step s = exec i { s with inputs := rest } := by
  simp only [step, fetch, hi, hd]

theorem step_request_error {s : State} {w : RequestWord} {why : DecodeError} {rest : List Input}
    (hi : s.inputs = .request w :: rest) (hd : decodeRequest w = .error why) :
    step s = .refused (.requestOutsideTable why) := by
  simp only [step, fetch, hi, hd]

end Sys2Proof.Encoding
end

section
/-!
PROOF. What a block that is busy does while nothing else happens: it waits unchanged while its request is not taken (R151),
it reaches IDLE within 157 cycles in which it is (R150), and in SQj it captures the lane of its SQUEEZE in quarter j (R68, R92).
-/

namespace Sys2Proof.Waiting

open Sys2Proof.Machine Sys2Proof.Safety Sys2Proof.WholeDigest Sys2Proof.Registers Sys2Proof.Sequencer

/-! ### The quarters of `digest` (R29, R68) -/

/-- The bits of a digest one of whose quarters has been written. -/
theorem getLsbD_setQuarter (j : Fin 4) (z : Lane) (d : Digest) {i : Nat} (hi : i < 256) :
    (setQuarter j z d).getLsbD i = if i / 64 = j.val then z.getLsbD (i - 64 * j.val) else d.getLsbD i := by
  match j with
  | 0 | 1 | 2 | 3 =>
    simp only [setQuarter, BitVec.getLsbD_append, BitVec.getLsbD_extractLsb']
    grind

theorem quarter_setQuarter_same (j : Fin 4) (z : Lane) (d : Digest) : quarter j.val (setQuarter j z d) = z := by
  apply BitVec.eq_of_getLsbD_eq
  intro i hi
  have hj := j.isLt
  rw [quarter, BitVec.getLsbD_extractLsb', getLsbD_setQuarter j z d (by omega), if_pos (by omega)]
  simp [hi]

theorem quarter_setQuarter_ne {j k : Fin 4} (h : k ≠ j) (z : Lane) (d : Digest) :
    quarter k.val (setQuarter j z d) = quarter k.val d := by
  apply BitVec.eq_of_getLsbD_eq
  intro i hi
  have hk := k.isLt
  have hne : k.val ≠ j.val := Fin.val_ne_of_ne h
  rw [quarter, quarter, BitVec.getLsbD_extractLsb', BitVec.getLsbD_extractLsb', getLsbD_setQuarter j z d (by omega),
    if_neg (by omega)]

/-- In SQj the micro-step is the SQUEEZE whose lane quarter j takes, at the port and in `digest` (R92). -/
theorem microStep_squeezeState (p : Pins) {s : State} {j : Fin 4} (h : s.seq = squeezeState j) :
    (microStep p s).trace = (squeezeInto j s).trace ∧ (microStep p s).collab = (squeezeInto j s).collab ∧
      (microStep p s).digest = (squeezeInto j s).digest := by
  match j with
  | 0 | 1 | 2 | 3 => simp [microStep, h, squeezeState]

/-! ### A request that is not taken (R72, R151) -/

theorem rst_of_spValid {p : Pins} {s : State} (h : spValid p s = true) : p.rst = false := by
  cases hr : p.rst with
  | false => rfl
  | true => simp [spValid, pendingRequest, hr] at h

theorem clockCycle_stalled {p : Pins} {s : State} (hv : spValid p s = true) (hs : p.spReady = false) :
    clockCycle p s = holdRequest s := by
  simp [clockCycle, stalled, rst_of_spValid hv, hv, hs]

/-- A busy block's request held for any number of cycles leaves it as it is. -/
theorem runCycles_stalled {p : Pins} {s : State} (hv : spValid p s = true) (hs : p.spReady = false)
    (hq : s.seq ≠ .idle) (n : Nat) : runCycles (List.replicate n p) s = s := by
  induction n with
  | zero => rfl
  | succ n ih => rw [List.replicate_succ, runCycles_cons, clockCycle_stalled hv hs, holdRequest_busy hq, ih]

/-- A word with NEW's opcode is run as NEW (R81). -/
theorem exec_decodeCommand_new {w : CommandWord} (h : commandOp w = 0b01#2) (s : State) :
    exec (decodeCommand w) s = .next (startDigest s) := by
  simp [decodeCommand, h, exec, execNew]

/-! ### The way to IDLE (R92, R150) -/

/-- The block reaches IDLE within `n` cycles in which the collaborator takes its request. -/
def IdleWithin (n : Nat) (s : State) : Prop := ∃ k ≤ n, (quietStep^[k] s).seq = .idle

theorem IdleWithin.of_idle {s : State} (h : s.seq = .idle) (n : Nat) : IdleWithin n s := ⟨0, Nat.zero_le n, h⟩

theorem IdleWithin.mono {m n : Nat} {s : State} (h : IdleWithin m s) (hmn : m ≤ n) : IdleWithin n s := by
  obtain ⟨k, hk, hq⟩ := h
  exact ⟨k, hk.trans hmn, hq⟩

theorem IdleWithin.before {m n : Nat} {s t : State} (h : IdleWithin n t) (hst : quietStep^[m] s = t) :
    IdleWithin (n + m) s := by
  obtain ⟨k, hk, hq⟩ := h
  exact ⟨k + m, by omega, by rw [Function.iterate_add_apply, hst, hq]⟩

theorem IdleWithin.step {n : Nat} {s : State} (h : IdleWithin n (quietStep s)) : IdleWithin (n + 1) s := h.before rfl

/-! SQ0 to SQ3 are FINALIZE's end, and LAST80 or LAST81 stands before them. -/

theorem idleWithin_sq3 (s : State) : IdleWithin 1 (atSeq .sq3 s) := .step (.of_idle rfl 0)
theorem idleWithin_sq2 (s : State) : IdleWithin 2 (atSeq .sq2 s) := .step (idleWithin_sq3 _)
theorem idleWithin_sq1 (s : State) : IdleWithin 3 (atSeq .sq1 s) := .step (idleWithin_sq2 _)
theorem idleWithin_sq0 (s : State) : IdleWithin 4 (atSeq .sq0 s) := .step (idleWithin_sq1 _)
theorem idleWithin_last80 (s : State) : IdleWithin 5 (atSeq .last80 s) := .step (idleWithin_sq0 _)
theorem idleWithin_last81 (s : State) : IdleWithin 5 (atSeq .last81 s) := .step (idleWithin_sq0 _)

/-- The INIT(1) of a NEW that waits for it. -/
theorem idleWithin_init1 (s : State) : IdleWithin 1 (atSeq .init1 s) := .step (.of_idle rfl 0)

/-! ADV0 to REINIT are the block transition, which stands outside FINALIZE (R87). -/

theorem idleWithin_reinit {s : State} (hfin : s.fin = false) : IdleWithin 1 (atSeq .reinit s) :=
  .step (.of_idle (show seqAfterByte s.fin = .idle by rw [hfin]; rfl) 0)
theorem idleWithin_adv3 {s : State} (hfin : s.fin = false) : IdleWithin 2 (atSeq .adv3 s) :=
  .step (idleWithin_reinit (s := spAdvance s) hfin)
theorem idleWithin_adv2 {s : State} (hfin : s.fin = false) : IdleWithin 3 (atSeq .adv2 s) :=
  .step (idleWithin_adv3 (s := spAdvance s) hfin)
theorem idleWithin_adv1 {s : State} (hfin : s.fin = false) : IdleWithin 4 (atSeq .adv1 s) :=
  .step (idleWithin_adv2 (s := spAdvance s) hfin)
theorem idleWithin_adv0 {s : State} (hfin : s.fin = false) : IdleWithin 5 (atSeq .adv0 s) :=
  .step (idleWithin_adv1 (s := spAdvance s) hfin)

/-- The padding's zeros, LAST80 and the squeeze: a cycle for each byte up to byte 135, one for each lane completed, and
six. -/
theorem idleWithin_padz {s : State} (hq : s.seq = .padz) (hfin : s.fin = true) (hl : s.lanes.toNat < 17) :
    IdleWithin (157 - s.fill.toNat - 9 * s.lanes.toNat) s := by
  have hf := s.fill.isLt
  obtain ⟨n, hn⟩ : ∃ n, s.fill.toNat + 8 * s.lanes.toNat + n = 135 := ⟨_, Nat.add_sub_of_le (by omega)⟩
  exact ((idleWithin_last80 _).before (injectZeros_completes n hq hfin hl hn)).mono (by omega)

/-- After a placement or a lane flush the block is idle, or in the padding of the rest of the block. -/
theorem idleWithin_afterByte {s : State} (hq : s.seq = seqAfterByte s.fin) (hl : s.lanes.toNat < 17) :
    IdleWithin (157 - 9 * s.lanes.toNat) s := by
  cases hfin : s.fin with
  | false => exact .of_idle (by rw [hq, hfin]; rfl) _
  | true => exact (idleWithin_padz (by rw [hq, hfin]; rfl) hfin hl).mono (by omega)

theorem idleWithin_pad1 {s : State} (hq : s.seq = .pad1) (hfin : s.fin = true) (hl : s.lanes.toNat < 17)
    (hlast : ¬ (s.fill = 7 ∧ s.lanes = 16)) : IdleWithin 157 s := by
  obtain ⟨k, hk, hpad⟩ := padBlock_completes (s := atSeq .padz s) rfl hfin hl
  have hstart : atSeq (padState (atSeq .padz s)) (atSeq .padz s) = s := by
    rw [show padState (atSeq .padz s) = s.seq from (if_neg hlast).trans hq.symm]
    rfl
  rw [hstart] at hpad
  exact ((idleWithin_sq0 _).before hpad).mono (by omega)

/-- EMIT ends a placement: the block is then idle, in the transition, or in the padding of the next lane. -/
theorem idleWithin_emit {s : State} (hq : s.seq = .emit) (hl : s.lanes.toNat < 17)
    (hlast : s.fin = true → s.lanes.toNat < 16) : IdleWithin 157 s := by
  rw [← atSeq_of_eq hq]
  by_cases h16 : s.lanes = 16
  · have hfin : s.fin = false := by
      by_contra hfin
      simpa [h16] using hlast (by simpa using hfin)
    have hflush : IdleWithin 5 (quietStep (atSeq .emit s)) := by
      rw [quietStep_emit_last h16]
      exact idleWithin_adv0 hfin
    exact hflush.step.mono (by decide)
  · have hlt := lanes_lt_of_ne hl h16
    have hsucc : (s.lanes + 1).toNat = s.lanes.toNat + 1 := lanes_succ _ hlt
    have hnext : IdleWithin 156 (quietStep (atSeq .emit s)) := by
      rw [quietStep_emit h16]
      exact (idleWithin_afterByte rfl (hsucc.trans_lt (Nat.succ_lt_succ hlt))).mono (by simp only [atSeq, hsucc]; omega)
    exact hnext.step

/-- From every state that meets the invariant the sequencer is in IDLE within 157 cycles (R150). -/
theorem idleWithin_of_blockInv {s : State} (h : BlockInv s) : IdleWithin 157 s := by
  obtain ⟨hl, -, hfit⟩ := h
  cases hq : s.seq <;> simp only [registersFit, hq] at hfit
  case idle => exact .of_idle hq 157
  case emit =>
    obtain ⟨-, -, hlast⟩ := hfit
    exact idleWithin_emit hq hl hlast
  case pad1 =>
    obtain ⟨-, hfin, -, hlast⟩ := hfit
    exact idleWithin_pad1 hq hfin hl hlast
  case padz =>
    obtain ⟨-, hfin, -⟩ := hfit
    exact (idleWithin_padz hq hfin hl).mono (by omega)
  all_goals rw [← atSeq_of_eq hq]
  case init1 => exact (idleWithin_init1 s).mono (by decide)
  case last80 => exact (idleWithin_last80 s).mono (by decide)
  case last81 => exact (idleWithin_last81 s).mono (by decide)
  case sq0 => exact (idleWithin_sq0 s).mono (by decide)
  case sq1 => exact (idleWithin_sq1 s).mono (by decide)
  case sq2 => exact (idleWithin_sq2 s).mono (by decide)
  case sq3 => exact (idleWithin_sq3 s).mono (by decide)
  all_goals obtain ⟨-, hfin, -⟩ := hfit
  case adv0 => exact (idleWithin_adv0 hfin).mono (by decide)
  case adv1 => exact (idleWithin_adv1 hfin).mono (by decide)
  case adv2 => exact (idleWithin_adv2 hfin).mono (by decide)
  case adv3 => exact (idleWithin_adv3 hfin).mono (by decide)
  case reinit => exact (idleWithin_reinit hfin).mono (by decide)

/-! ### A command that waits at the port (R72, R146) -/

theorem place_inputs (b : Byte) (s : State) : (place b s).inputs = s.inputs := by
  unfold place
  split <;> rfl

/-- No micro-step takes an input. -/
theorem microStep_inputs (p : Pins) (s : State) : (microStep p s).inputs = s.inputs := by
  cases hq : s.seq with
  | idle =>
    rw [microStep_idle p hq]
    split
    · obtain ⟨c, -, e⟩ | e | ⟨-, e⟩ | ⟨-, e⟩ := acceptCommand_cases p.cmd s <;> rw [e]
      · rfl
      · rfl
      · exact place_inputs _ s
    · rfl
  | emit =>
    simp only [microStep, hq]
    split <;> rfl
  | pad1 => simp only [microStep, hq, place_inputs]
  | padz =>
    simp only [microStep, hq]
    split
    · rfl
    · exact place_inputs _ s
  | adv0 | adv1 | adv2 | adv3 | reinit | last80 | last81 | sq0 | sq1 | sq2 | sq3 | init1 => simp [microStep, hq]

/-- A command presented to a busy block waits while one cycle of the sequencer passes (log 6). -/
theorem step_command_busy {s : State} {w : CommandWord} {rest : List Input} (hi : s.inputs = .command w :: rest)
    (hq : s.seq ≠ .idle) : step s = .next (quietStep s) := by
  have hcycle : clockCycle quietPins s = quietStep s := clockCycle_ready quietPins s rfl rfl
  simp only [step, fetch, hi, if_neg hq, hcycle]

/-- The run of a command that waits stops at the first idle state: the command is still there. -/
theorem run_to_idle {s : State} {w : CommandWord} {rest : List Input} (hi : s.inputs = .command w :: rest) {k : Nat}
    (hk : (quietStep^[k] s).seq = .idle) :
    ∃ n t, n ≤ k ∧ Sys2Proof.core.run n s = .next t ∧ t.seq = .idle ∧ t.inputs = s.inputs := by
  induction k generalizing s with
  | zero => exact ⟨0, s, le_rfl, rfl, hk, rfl⟩
  | succ k ih =>
    by_cases hq : s.seq = .idle
    · exact ⟨0, s, Nat.zero_le _, rfl, hq, rfl⟩
    · have hinputs : (quietStep s).inputs = s.inputs := microStep_inputs quietPins s
      obtain ⟨n, t, hn, hrun, ht, hsame⟩ := ih (hinputs.trans hi) hk
      have hstep := core_run_succ n (step_command_busy hi hq)
      exact ⟨n + 1, t, Nat.succ_le_succ hn, hstep.trans hrun, ht, hsame.trans hinputs⟩

end Sys2Proof.Waiting
end

section
/-! PROOF. The obligations of the encoding family (spec/30_encoding.md). -/

open Sys2Proof Sys2Proof.Machine Sys2Proof.Safety Sys2Proof.WholeDigest Sys2Proof.Registers Sys2Proof.Sequencer
  Sys2Proof.Encoding Sys2Proof.Waiting

/-- Settles O1: by cases on the instruction; the fields of a word put together from fields are those fields, so each opcode
finds its own branch of the decoder. -/
theorem decodeInvertsEncode : Obligations.DecodeInvertsEncode := by
  unfold Obligations.DecodeInvertsEncode
  intro i
  cases i with
  | reserved d => exact congrArg Except.ok (decodeCommand_reserved d)
  | new d => exact congrArg Except.ok (decodeCommand_new d)
  | absorb b => exact congrArg Except.ok (decodeCommand_absorb b)
  | finalize d => exact congrArg Except.ok (decodeCommand_finalize d)
  | init f => exact decodeRequest_init f
  | absorbLane l => exact decodeRequest_absorbLane l
  | advance => rfl
  | squeeze => rfl

/-- Settles O2: in each branch of the decoder the word is put together again from its opcode and what the branch keeps. -/
theorem encodeInvertsDecode : Obligations.EncodeInvertsDecode := by
  unfold Obligations.EncodeInvertsDecode
  intro w i h
  cases w with
  | command w =>
    cases h
    exact encode_decodeCommand w
  | request w => exact encode_of_decodeRequest h

/-- Settles O4: a word that decodes is the word of that instruction, which selects its row; a word that selects a row has the
opcode and the payload of a branch that decodes. -/
theorem requestWordDecodesInTable : Obligations.RequestWordDecodesInTable := by
  unfold Obligations.RequestWordDecodesInTable
  intro w
  refine ⟨fun i h => selects_row_of_decodeRequest h, ?_⟩
  rw [← Bool.not_eq_true, wellFormed_request_iff]
  cases hd : decodeRequest w with
  | ok i => simp
  | error why => cases why <;> simp

/-- Settles O25: the cycle is the SQUEEZE with its capture, and writing a quarter leaves the others alone. -/
theorem squeezeWritesItsQuarter : Obligations.SqueezeWritesItsQuarter := by
  unfold Obligations.SqueezeWritesItsQuarter
  intro s p j hq hr hs
  obtain ⟨htrace, hcollab, hdigest⟩ := microStep_squeezeState p hq
  refine ⟨squeezed s, spSqueeze s, _, rfl, rfl, ?_⟩
  rw [clockCycle_ready p s hr hs, htrace, hcollab, hdigest]
  exact ⟨rfl, rfl, rfl, quarter_setQuarter_same j _ _, fun k hk => quarter_setQuarter_ne hk _ _⟩

/-- Settles O48: a busy block holds its request; an idle one has accepted a NEW, whose INIT(1) is held in `init1`, and that
state is complete when the request is taken. -/
theorem stalledBlockWaits : Obligations.StalledBlockWaits := by
  unfold Obligations.StalledBlockWaits
  intro p s n hv hs
  refine ⟨fun hq => ⟨runCycles_stalled hv hs hq n, by simp [busy, hq], by simp [cmdReady, busy, hq]⟩, fun hq => ?_⟩
  obtain ⟨hr, -, hop⟩ : p.rst = false ∧ p.cmdValid = true ∧ commandOp p.cmd = 0b01#2 := by
    simpa [spValid_idle p s hq] using hv
  have hwaits : runCycles (List.replicate (n + 1) p) s = atSeq .init1 (openDigest s) := by
    rw [List.replicate_succ, runCycles_cons, clockCycle_stalled hv hs, holdRequest_idle hq]
    exact runCycles_stalled (by simp [spValid, pendingRequest, hr]) hs (by simp) n
  refine ⟨by simp [cmdReady, busy, hq, hr], _, hwaits.symm, rfl, rfl, rfl, ?_, ?_⟩
  · simp [spReq, pendingRequest, atSeq, hr]
  · have htaken : clockCycle { p with spReady := true } (atSeq .init1 (openDigest s)) = startDigest s := by
      rw [clockCycle_ready { p with spReady := true } _ hr rfl, microStep_busy _ quietPins _ (by simp [atSeq])]
      exact init1_completes hq
    rw [htaken, exec_decodeCommand_new hop]

/-- Settles O49: the invariant gives a way to IDLE of at most 157 cycles from every state of the sequencer, and the run stops
at its first idle state, since until then the command only waits. -/
theorem waitingCommandIsReached : Obligations.WaitingCommandIsReached := by
  unfold Obligations.WaitingCommandIsReached
  intro s w rest hinv hi
  obtain ⟨k, hk, hidle⟩ := idleWithin_of_blockInv hinv
  obtain ⟨n, t, hn, hrun⟩ := run_to_idle hi hidle
  exact ⟨n, t, hn.trans hk, hrun⟩

/-- Settles O3: the masks leave the opcode, which is one of four. -/
theorem commandWordSelectsOneRow : Obligations.CommandWordSelectsOneRow := by
  unfold Obligations.CommandWordSelectsOneRow
  intro w
  unfold decodeCommand
  split_ifs with h0 h1 h2
  · show _ = [Instr.row (.reserved 0)]
    simp [tableRows, h0]
  · show _ = [Instr.row (.new 0)]
    simp [tableRows, h1]
  · show _ = [Instr.row (.absorb 0)]
    simp [tableRows, h2]
  · show _ = [Instr.row (.finalize 0)]
    simp [tableRows, op_eq_three h0 h1 h2]

/-- Settles O5: each word's fields are computed. -/
theorem specWordsDecode : Obligations.SpecWordsDecode := by
  unfold Obligations.SpecWordsDecode
  exact ⟨rfl, rfl, rfl, rfl, rfl, rfl, rfl, rfl⟩

/-- Settles O7: the step follows what the word decodes to. -/
theorem stepRunsRequest : Obligations.StepRunsRequest := by
  unfold Obligations.StepRunsRequest
  intro s w rest hi
  exact ⟨fun i hd => step_request_ok hi hd, fun why hd => step_request_error hi hd⟩

/-- Settles O9: the placed word is the next input of an idle block, a command word or a request word by the row's width. -/
theorem placedWordRuns : Obligations.PlacedWordRuns := by
  unfold Obligations.PlacedWordRuns
  intro s nbits w i h
  simp only [decodeTableWord] at h
  split_ifs at h with hn hw hw
  · cases h
    exact step_command (s := s.withFetchWord nbits w) rfl (congrArg (· :: s.inputs) (if_pos hn))
  · have hd : decodeRequest (BitVec.ofNat 66 w) = .ok i := by
      cases hd : decodeRequest (BitVec.ofNat 66 w) with
      | ok j =>
        rw [hd] at h
        cases h
        rfl
      | error why =>
        rw [hd] at h
        cases h
    exact step_request_ok (s := s.withFetchWord nbits w) (congrArg (· :: s.inputs) (if_neg hn)) hd

/-- Settles O16: the meanings of the three commands do not name their data. -/
theorem dataBitsIgnored : Obligations.DataBitsIgnored := by
  unfold Obligations.DataBitsIgnored
  intro d d' s
  exact ⟨rfl, rfl, rfl⟩

end

section
/-!
PROOF. What the commands do as a whole, in the form the command rules give it (R80 to R93): the position in a block as a
number of bytes (R85), the marker in the top byte (R88), the state in which the padding leaves the block (R87), and the
reference collaborator through the lanes of a FINALIZE and its four SQUEEZE (R110, R111).
-/

namespace Sys2Proof.Commands

open Sys2Proof.Machine Sys2Proof.Safety Sys2Proof.WholeDigest Sys2Proof.Registers Sys2Proof.Sequencer

/-- Quiet cycles are quiet steps (R92). -/
theorem runCycles_replicate_quiet (n : Nat) (s : State) : runCycles (List.replicate n quietPins) s = quietStep^[n] s := by
  induction n generalizing s with
  | zero => rfl
  | succ n ih =>
    rw [List.replicate_succ, runCycles_cons, ih, Function.iterate_succ_apply, clockCycle_ready quietPins s rfl rfl]
    rfl

/-- The block transition is five events at the port, and changes no register (R16, R82). -/
theorem blockTransition_eq (s : State) : blockTransition s =
    { s with trace := (blockTransition s).trace, collab := (blockTransition s).collab } := rfl

/-! ### The position in the block as a number of bytes (R85) -/

/-- `bytes_to_pad` says where in the block the next byte goes. -/
theorem bytesToPad_eq_iff (fill g : BitVec 3) (lanes n : BitVec 5) :
    bytesToPad fill lanes = bytesToPad g n ↔ fill = g ∧ lanes = n := by
  have hf := fill.isLt
  have hg := g.isLt
  simp only [bytesToPad, ← BitVec.toNat_inj]
  omega

/-! ### The marker in the top byte (R88) -/

theorem toNat_markerTop (m : Byte) : (markerTop m).toNat = m.toNat * 2 ^ 56 := by
  have hm := m.isLt
  rw [markerTop, BitVec.toNat_shiftLeft, BitVec.toNat_setWidth, Nat.shiftLeft_eq]
  omega

/-- Above seven bytes the or-ed marker is a byte put before them. -/
theorem or_markerTop {acc : Lane} (h : acc >>> 56 = 0) (m : Byte) : acc ||| markerTop m = m ++ acc.extractLsb' 0 56 := by
  apply BitVec.eq_of_getLsbD_eq
  intro i hi
  have hacc : ¬ i < 56 → acc.getLsbD i = false := fun h56 => PlacedByte.getLsbD_of_shift_eq_zero h (by omega)
  simp only [markerTop, BitVec.getLsbD_append, BitVec.getLsbD_or, BitVec.getLsbD_shiftLeft, BitVec.getLsbD_setWidth,
    BitVec.getLsbD_extractLsb']
  by_cases h56 : i < 56
  · simp [h56]
  · rw [hacc h56]
    simp [h56, hi, show i - 56 < 64 by omega]

/-! ### The padding's byte injections (R84, R87) -/

theorem injectBytes_upperBytesZero (m : List Byte) {s : State} (h : upperBytesZero s) :
    upperBytesZero (injectBytes m s) := by
  induction m generalizing s with
  | nil => exact h
  | cons b m ih => exact ih (injectByte_upperBytesZero b h)

/-- The bytes that FINALIZE injects in the general case, before it sends the block's last lane itself. -/
def padBytes (s : State) : State :=
  injectZeros (bytesToPad s.fill s.lanes - 2).toNat (injectByte Config.padStart s)

theorem padBlock_general {s : State} (h : bytesToPad s.fill s.lanes ≠ 1) :
    padBlock s = spAbsorbLane ((padBytes s).acc + markerTop Config.padEnd) (padBytes s) := by
  simp only [padBlock, if_neg h, padBytes]

theorem padBytes_upperBytesZero {s : State} (h : upperBytesZero s) : upperBytesZero (padBytes s) := by
  rw [padBytes, injectZeros_eq]
  exact injectBytes_upperBytesZero _ (injectByte_upperBytesZero _ h)

/-- The padding sends the lanes of `finalLanes` (R86). -/
theorem padBlock_trace {s : State} (hl : s.lanes.toNat < 17) (hz : upperBytesZero s) :
    (padBlock s).trace = s.trace ++ (finalLanes s.acc s.fill s.lanes).map .absorbLane := by
  obtain ⟨a, ha⟩ := padBlock_eq s hl hz
  rw [ha, absorbLanes_eq]

/-- Before the last lane of the padding, which is sent on its own, the others have been sent. -/
theorem padBytes_trace {s : State} (hl : s.lanes.toNat < 17) (hz : upperBytesZero s)
    (h : bytesToPad s.fill s.lanes ≠ 1) :
    (padBytes s).trace = s.trace ++ (finalLanes s.acc s.fill s.lanes).dropLast.map .absorbLane := by
  have htrace := padBlock_trace hl hz
  have hsome : finalLanes s.acc s.fill s.lanes ≠ [] := by
    rw [← List.length_pos_iff, length_finalLanes _ _ _ hl]
    omega
  rw [padBlock_general h, spAbsorbLane_trace] at htrace
  have hbefore := congrArg List.dropLast htrace
  rwa [List.dropLast_concat, List.dropLast_append_of_ne_nil (by simpa using hsome), ← List.map_dropLast] at hbefore

/-! ### The reference collaborator (R110, R111) -/

/-- The next lane of the block, then the others, are the lanes together. -/
theorem xorFrom_cons (S : LaneArray) (l : Lane) (ls : List Lane) {ai : Nat} (h : ai < 25) :
    xorFrom (S.set ai (S[ai] ^^^ l)) (ai + 1) ls = xorFrom S ai (l :: ls) := by
  ext1 i hi
  simp only [xorFrom, Vector.getElem_ofFn, Fin.getElem_fin, Vector.getElem_set]
  obtain hlt | rfl | hgt := Nat.lt_trichotomy i ai
  · simp [show ¬ ai + 1 ≤ i by omega, show ¬ ai ≤ i by omega, hlt.ne']
  · simp
  · obtain ⟨k, rfl⟩ := Nat.exists_eq_add_of_le hgt
    simp [show ai + 1 + k - ai = k + 1 by omega, show ai ≠ ai + 1 + k by omega, show ai ≤ ai + 1 + k by omega]

@[simp] theorem xorFrom_nil (S : LaneArray) (ai : Nat) : xorFrom S ai [] = S := by
  ext1 i hi
  simp [xorFrom]

/-- Lanes that fit in the block are xored in where the collaborator stands (R110). -/
theorem absorbLanes_reference (ls : List Lane) {s : State} {S : LaneArray} {ai : Nat}
    (h : s.collab = .reference { S := S, ai := ai, oi := 0 }) (hfit : ai + ls.length ≤ 17) :
    (absorbLanes ls s).collab = .reference { S := xorFrom S ai ls, ai := ai + ls.length, oi := 0 } := by
  induction ls generalizing s S ai with
  | nil => simpa using h
  | cons l ls ih =>
    rw [List.length_cons] at hfit
    have hai : ai < 17 := by omega
    have hlane : (spAbsorbLane l s).collab =
        .reference { S := S.set ai (S[ai] ^^^ l), ai := ai + 1, oi := 0 } := by
      rw [spAbsorbLane_collab, h, collabAbsorb_permitted l _ ⟨hai, rfl⟩]
      rfl
    rw [absorbLanes_cons, ih hlane (by omega), xorFrom_cons S l ls (by omega), List.length_cons,
      show ai + 1 + ls.length = ai + (ls.length + 1) by omega]

/-- FINALIZE's padding completes the block at the collaborator, its lanes xored in (R86, R110). -/
theorem padBlock_reference {s : State} {S : LaneArray} (hl : s.lanes.toNat < 17) (hz : upperBytesZero s)
    (h : s.collab = .reference { S := S, ai := s.lanes.toNat, oi := 0 }) :
    (padBlock s).collab = .reference
      { S := xorFrom S s.lanes.toNat (finalLanes s.acc s.fill s.lanes), ai := 17, oi := 0 } := by
  have hlen := length_finalLanes s.acc s.fill s.lanes hl
  have hfull : s.lanes.toNat + (finalLanes s.acc s.fill s.lanes).length = 17 := by omega
  obtain ⟨a, ha⟩ := padBlock_eq s hl hz
  rw [ha, ← hfull]
  exact absorbLanes_reference _ h hfull.le

/-- After the four SQUEEZE the collaborator holds the permuted state, with no output step left (R111). -/
theorem squeezeDigest_reference_collab {s : State} {S : LaneArray}
    (h : s.collab = .reference { S := S, ai := 17, oi := 0 }) :
    (squeezeDigest s).collab = .reference { S := keccakF S, ai := 17, oi := 4 } := by
  obtain ⟨-, h1⟩ := spSqueeze_first h
  obtain ⟨-, h2⟩ := spSqueeze_later (by decide) h1 (by decide)
  obtain ⟨-, h3⟩ := spSqueeze_later (by decide) h2 (by decide)
  obtain ⟨-, h4⟩ := spSqueeze_later (by decide) h3 (by decide)
  exact h4

/-! ### The four SQUEEZE (R84) -/

/-- FINALIZE's end, whatever the collaborator answers: the four events, their lanes in `digest`, the data registers clear. -/
theorem squeezeDigest_eq (s : State) : ∃ z0 z1 z2 z3 c, squeezeDigest s =
    { s with
      acc := 0, fill := 0, lanes := 0, phase := .done, digest := z3 ++ z2 ++ z1 ++ z0,
      trace := s.trace ++ [.squeeze z0, .squeeze z1, .squeeze z2, .squeeze z3], collab := c } := by
  obtain ⟨s1, h1⟩ : ∃ s1, s1 = spSqueeze s := ⟨_, rfl⟩
  obtain ⟨s2, h2⟩ : ∃ s2, s2 = spSqueeze s1 := ⟨_, rfl⟩
  obtain ⟨s3, h3⟩ : ∃ s3, s3 = spSqueeze s2 := ⟨_, rfl⟩
  refine ⟨squeezed s, squeezed s1, squeezed s2, squeezed s3, (spSqueeze s3).collab, ?_⟩
  simp only [squeezeDigest, ← h1, ← h2, ← h3, assembleDigest, clearData]
  simp [h3, h2, h1]

/-! ### The lifecycle (R93) -/

/-- What the table says of a command in the state `s` that leaves the state `t`: its next phase, and its error if it is
misuse. -/
def LifecycleEntry (i : Instr) (s t : State) : Prop :=
  t.phase = nextPhase i s.phase ∧
    (∀ c, misuse i s.phase = some c → t.err = true ∧ t.trace = s.trace ∧
      t.errCause = if s.err = true then s.errCause else c) ∧
    (misuse i s.phase = none → t.err = s.err ∧ t.errCause = s.errCause)

/-- Error entry is the table's entry of a command that is misuse in its phase (R124). -/
theorem errorEntry_lifecycle {i : Instr} {s : State} {c : ErrCause} (hm : misuse i s.phase = some c)
    (hp : nextPhase i s.phase = s.phase) : LifecycleEntry i s (errorEntry c s) := by
  rw [LifecycleEntry, hm, hp]
  refine ⟨rfl, fun c' hc => ?_, fun hn => nomatch hn⟩
  cases hc
  exact ⟨rfl, rfl, rfl⟩

/-- A command that is no misuse has its entry when it leads to the phase and leaves the error registers alone. -/
theorem legal_lifecycle {i : Instr} {s t : State} (hm : misuse i s.phase = none) (hp : t.phase = nextPhase i s.phase)
    (herr : t.err = s.err) (hcause : t.errCause = s.errCause) : LifecycleEntry i s t := by
  rw [LifecycleEntry, hm]
  exact ⟨hp, fun c hc => (nomatch hc), fun _ => ⟨herr, hcause⟩⟩

/-- What ABSORB and FINALIZE are outside ACTIVE (R93). -/
theorem inactive_table {p : Phase} (h : p ≠ .active) (b : Byte) :
    misuse (.absorb b) p = some .absorbNotActive ∧ misuse (.finalize b) p = some .finalizeNotActive ∧
      nextPhase (.absorb b) p = p ∧ nextPhase (.finalize b) p = p := by
  cases p with
  | active => exact absurd rfl h
  | empty => exact ⟨rfl, rfl, rfl, rfl⟩
  | done => exact ⟨rfl, rfl, rfl, rfl⟩

end Sys2Proof.Commands
end

section
/-! PROOF. The obligations of the command family (spec/40_commands.md). -/

open Sys2Proof Sys2Proof.Machine Sys2Proof.Safety Sys2Proof.WholeDigest Sys2Proof.Registers Sys2Proof.Sequencer
  Sys2Proof.Commands

/-- Settles O46: the cycle that accepts the word and the quiet steps after it complete the command. -/
theorem cyclesRefineCommands : Obligations.CyclesRefineCommands := by
  unfold Obligations.CyclesRefineCommands
  intro s t w hinv hq hx
  obtain ⟨n, hn, hdone⟩ := command_completes (p := offerPins w) hinv hq rfl rfl hx
  exact ⟨n, hn, by rw [runCycles_cons, runCycles_replicate_quiet, hdone]⟩

/-- Settles O51: the run is NEW, the bytes through the byte path, the padding and the squeeze; its events are those of the
digest, and its parts' frames say what it leaves alone. -/
theorem wholeDigestTrace : Obligations.WholeDigestTrace := by
  unfold Obligations.WholeDigestTrace
  intro m s rest hq hi
  obtain ⟨u, hu⟩ : ∃ u, u = injectBytes m (startDigest { s with inputs := rest }) := ⟨_, rfl⟩
  obtain ⟨z0, z1, z2, z3, htrace, hdigest⟩ := keccak256_events m { s with inputs := rest }
  obtain ⟨-, herr, hcause, -, -, -, hinputs⟩ := injectBytes_frame m (startDigest { s with inputs := rest })
  have hrun := core_run_keccak256 m hq hi
  rw [← hu] at htrace hdigest herr hcause hinputs hrun
  obtain ⟨herr', hcause', -, -, hinputs'⟩ := finalize_frame u
  exact ⟨_, z0, z1, z2, z3, hrun, htrace, hdigest, rfl, herr'.trans herr, hcause'.trans hcause, hinputs'.trans hinputs⟩

/-- Settles O12: ABSORB is the byte path in its three cases, or error entry, and both keep the place in the lane. -/
theorem absorbFollowsBytePath : Obligations.AbsorbFollowsBytePath := by
  unfold Obligations.AbsorbFollowsBytePath
  intro b s
  refine ⟨fun ha h7 => ?_, fun ha h7 h16 => ?_, fun ha h7 h16 => ?_, fun hn => exec_absorb_inactive hn,
    fun hl hz t hx => ?_⟩
  · rw [exec_absorb_active ha, injectByte_place b s h7]
    rfl
  · rw [exec_absorb_active ha, injectByte_lane b s h7 h16, placeByte_top]
    rfl
  · refine ⟨blockTransition (spAbsorbLane (s.acc ||| (b.setWidth 64 <<< 56)) s), rfl, ?_, ?_⟩
    · rw [blockTransition_trace, spAbsorbLane_trace, List.append_assoc, List.singleton_append]
    · rw [exec_absorb_active ha, injectByte_block b s h7 h16, placeByte_top, blockTransition_eq]
      rfl
  · by_cases ha : s.phase = .active
    · cases (exec_absorb_active ha).symm.trans hx
      exact ⟨injectByte_lanes_lt b hl, injectByte_upperBytesZero b hz⟩
    · cases (exec_absorb_inactive ha).symm.trans hx
      exact ⟨hl, hz⟩

/-- Settles O14: the padding sends `finalLanes` and moves the data registers only; the four SQUEEZE follow it. -/
theorem finalizeCompletes : Obligations.FinalizeCompletes := by
  unfold Obligations.FinalizeCompletes
  intro d s
  refine ⟨fun ha hl hz => ?_, fun hn => exec_finalize_inactive hn⟩
  obtain ⟨z0, z1, z2, z3, c, hsqueeze⟩ := squeezeDigest_eq (padBlock s)
  obtain ⟨a, hpad⟩ := padBlock_eq s hl hz
  refine ⟨z0, z1, z2, z3, c, ?_⟩
  rw [exec_finalize_active ha, hsqueeze, hpad, absorbLanes_eq]

/-- Settles O15: the collaborator takes the padding's lanes from `ai = lanes` on, and its first output step permutes them. -/
theorem finalizeSqueezesReference : Obligations.FinalizeSqueezesReference := by
  unfold Obligations.FinalizeSqueezesReference
  intro d s c K ha hl hz hc hai hoi hK
  obtain ⟨S, ai, oi⟩ := c
  subst hai hoi hK
  have hpad := padBlock_reference hl hz hc
  exact ⟨_, exec_finalize_active ha, squeezeDigest_reference_collab hpad, squeezeDigest_reference hpad⟩

/-- Settles O18: by cases on the instruction, and for ABSORB and FINALIZE on the phase: error entry, or a frame without one. -/
theorem lifecycleTable : Obligations.LifecycleTable := by
  unfold Obligations.LifecycleTable
  intro i s
  refine ⟨rfl, ?_⟩
  cases i with
  | reserved d => exact ⟨_, rfl, errorEntry_lifecycle rfl rfl⟩
  | new d => exact ⟨_, rfl, legal_lifecycle rfl rfl rfl rfl⟩
  | absorb b =>
    by_cases ha : s.phase = .active
    · obtain ⟨hphase, herr, hcause, -⟩ := injectByte_frame b s
      exact ⟨_, exec_absorb_active ha, legal_lifecycle (by rw [ha]; rfl) hphase herr hcause⟩
    · obtain ⟨hm, -, hp, -⟩ := inactive_table ha b
      exact ⟨_, exec_absorb_inactive ha, errorEntry_lifecycle hm hp⟩
  | finalize d =>
    by_cases ha : s.phase = .active
    · obtain ⟨herr, hcause, -⟩ := finalize_frame s
      exact ⟨_, exec_finalize_active ha, legal_lifecycle (by rw [ha]; rfl) (by rw [ha]; rfl) herr hcause⟩
    · obtain ⟨-, hm, -, hp⟩ := inactive_table ha d
      exact ⟨_, exec_finalize_inactive ha, errorEntry_lifecycle hm hp⟩
  | init f => exact ⟨_, rfl, legal_lifecycle rfl rfl rfl rfl⟩
  | absorbLane l => exact ⟨_, rfl, legal_lifecycle rfl rfl rfl rfl⟩
  | advance => exact ⟨_, rfl, legal_lifecycle rfl rfl rfl rfl⟩
  | squeeze => exact ⟨_, rfl, legal_lifecycle rfl rfl rfl rfl⟩

/-- Settles O37: `acc` is below `2^56` and the marker's ones are from there up, so the addition has no carry. -/
theorem markerNeverCarries : Obligations.MarkerNeverCarries := by
  unfold Obligations.MarkerNeverCarries
  intro acc m h
  have hacc : acc.toNat < 2 ^ 56 := (shift_eq_zero_iff acc 56).1 h
  have hm := m.isLt
  rw [add_marker acc m hacc]
  refine ⟨rfl, or_eq_xor_of_and_eq_zero _ _ (and_shiftLeft_eq_zero h _), or_markerTop h m, ?_⟩
  rw [toNat_markerTop]
  omega

/-- Settles O39: the padding ends at byte 135 after the lanes of `finalLanes`, the last of which FINALIZE sends itself. -/
theorem paddingStopsAtByte135 : Obligations.PaddingStopsAtByte135 := by
  unfold Obligations.PaddingStopsAtByte135
  intro s t hl hz hp ht
  have ht : t = padBytes s := ht
  subst ht
  obtain ⟨a, ha⟩ := padBlock_eq s hl hz
  rw [padBlock_general hp] at ha
  refine ⟨congrArg State.fill ha, congrArg State.lanes ha, padBytes_upperBytesZero hz, _, ?_, padBytes_trace hl hz hp⟩
  rw [List.length_dropLast, length_finalLanes _ _ _ hl]
  omega

/-- Settles O6: every command word decodes, and an idle block runs what it decodes to. -/
theorem stepRunsCommand : Obligations.StepRunsCommand := by
  unfold Obligations.StepRunsCommand
  intro s w rest hi hq
  exact ⟨rfl, step_command hq hi⟩

/-- Settles O10: NEW's meaning is its register writes and INIT(1). -/
theorem newStartsDigest : Obligations.NewStartsDigest := by
  unfold Obligations.NewStartsDigest
  intro d s
  rfl

/-- Settles O38: `bytes_to_pad` is 136 less the position in the block, and it is one position's only. -/
theorem bytesToPadRange : Obligations.BytesToPadRange := by
  unfold Obligations.BytesToPadRange
  intro fill lanes hl
  have hf := fill.isLt
  refine ⟨?_, ?_, bytesToPad_eq_iff fill 7 lanes 16, bytesToPad_eq_iff fill 6 lanes 16, bytesToPad_eq_iff fill 0 lanes 0⟩
  · simp only [bytesToPad, Config.rateBytes]
    omega
  · simp only [bytesToPad, Config.rateBytes]
    omega

end

section
/-!
PROOF. The requests at the port, one by one (R101 to R104): what each leaves with the reference collaborator behind it, where
that permits it (R109 to R111), and with a collaborator of which nothing is known (R107, R115).
-/

namespace Sys2Proof.Port

open Sys2Proof.Machine

theorem exec_init (f : Bool) (s : State) :
    exec (.init f) s = .next (issue (.init f) (collabInit s.trace f s.collab) s) := rfl

theorem exec_absorbLane (l : Lane) (s : State) :
    exec (.absorbLane l) s = .next (issue (.absorbLane l) (collabAbsorb l s.collab) s) := rfl

theorem exec_advance (s : State) : exec .advance s = .next (issue .advance (collabOutput s.trace s.collab).2 s) := rfl

theorem exec_squeeze (s : State) : exec .squeeze s =
    .next (issue (.squeeze (collabOutput s.trace s.collab).1) (collabOutput s.trace s.collab).2 s) := rfl

/-! ### The reference collaborator (R110, R111) -/

theorem spAbsorbLane_reference (l : Lane) {s : State} {S : LaneArray} {ai : Nat} (hai : ai < 17)
    (h : s.collab = .reference { S := S, ai := ai, oi := 0 }) :
    spAbsorbLane l s =
      issue (.absorbLane l) (.reference { S := S.set ai (S[ai] ^^^ l), ai := ai + 1, oi := 0 }) s := by
  rw [spAbsorbLane, h, collabAbsorb_permitted l _ ⟨hai, rfl⟩]
  rfl

/-- The answer of the output step `j` where permitted: the state is permuted at step 0 only. -/
theorem collabOutput_reference (trace : List Event) (S : LaneArray) {j : Nat} (hj : j < 4) :
    collabOutput trace (.reference { S := S, ai := 17, oi := j }) =
      ((if j = 0 then keccakF S else S)[j],
        .reference { S := if j = 0 then keccakF S else S, ai := 17, oi := j + 1 }) :=
  collabOutput_permitted trace _ ⟨rfl, hj⟩

theorem spAdvance_reference {s : State} {S : LaneArray} {j : Nat} (hj : j < 4)
    (h : s.collab = .reference { S := S, ai := 17, oi := j }) :
    spAdvance s = issue .advance (.reference { S := if j = 0 then keccakF S else S, ai := 17, oi := j + 1 }) s := by
  rw [spAdvance, h, collabOutput_reference _ S hj]

theorem spSqueeze_reference {s : State} {S : LaneArray} {j : Nat} (hj : j < 4)
    (h : s.collab = .reference { S := S, ai := 17, oi := j }) :
    spSqueeze s = issue (.squeeze (if j = 0 then keccakF S else S)[j])
      (.reference { S := if j = 0 then keccakF S else S, ai := 17, oi := j + 1 }) s := by
  rw [spSqueeze, squeezed, h, collabOutput_reference _ S hj]

/-- Four ADVANCE and INIT(0) after 17 lanes permute the state once (R103, R111). -/
theorem blockTransition_reference {s : State} {S : LaneArray}
    (h : s.collab = .reference { S := S, ai := 17, oi := 0 }) :
    (blockTransition s).collab = .reference { S := keccakF S, ai := 0, oi := 0 } := by
  rw [blockTransition, spAdvance_reference (by decide) h, spAdvance_reference (by decide) (issue_collab _ _ _),
    spAdvance_reference (by decide) (issue_collab _ _ _), spAdvance_reference (by decide) (issue_collab _ _ _)]
  rfl

/-- Four SQUEEZE after 17 lanes return lanes 0 to 3 of the permuted state (R104, R111). -/
theorem spSqueeze_four_reference {s : State} {S : LaneArray}
    (h : s.collab = .reference { S := S, ai := 17, oi := 0 }) :
    spSqueeze (spSqueeze (spSqueeze (spSqueeze s))) =
      { s with
        trace := s.trace ++ [.squeeze (keccakF S)[0], .squeeze (keccakF S)[1], .squeeze (keccakF S)[2],
          .squeeze (keccakF S)[3]],
        collab := .reference { S := keccakF S, ai := 17, oi := 4 } } := by
  rw [spSqueeze_reference (by decide) h, spSqueeze_reference (by decide) (issue_collab _ _ _),
    spSqueeze_reference (by decide) (issue_collab _ _ _), spSqueeze_reference (by decide) (issue_collab _ _ _)]
  simp [issue]

/-! ### A collaborator of which nothing is known (R107, R115) -/

/-- An event that leaves the collaborator as it was. -/
theorem issue_same (e : Event) (s : State) : issue e s.collab s = { s with trace := s.trace ++ [e] } := rfl

theorem collabAbsorb_free (l : Lane) {c : Collaborator} (h : c = .external ∨ c = .unknown) : collabAbsorb l c = c := by
  obtain rfl | rfl := h <;> rfl

theorem collabOutput_free (trace : List Event) {c : Collaborator} (h : c = .external ∨ c = .unknown) :
    collabOutput trace c = (Config.freeLane trace, c) := by
  obtain rfl | rfl := h <;> rfl

end Sys2Proof.Port
end

section
/-! PROOF. Keccak-f by lane positions (R112): each step mapping builds the lanes of its formula. -/

namespace Sys2Proof.Permutation

open Sys2Proof.Machine

@[simp] theorem laneAt_buildLanes (f : Fin 5 → Fin 5 → Lane) (x y : Fin 5) : laneAt (buildLanes f) x y = f x y := by
  fin_cases x <;> fin_cases y <;> rfl

theorem laneAt_theta (a : LaneArray) (x y : Fin 5) : laneAt (theta a) x y =
    laneAt a x y ^^^ (columnParity a (x + 4) ^^^ rol (columnParity a (x + 1)) 1) := by
  rw [theta, laneAt_buildLanes]
  fin_cases x <;> rfl

theorem laneAt_rhoPi (a : LaneArray) (x y : Fin 5) :
    laneAt (rhoPi a) y (2 * x + 3 * y) = rol (laneAt a x y) (rotationOffset x y) := by
  have hsource : y + 3 * (2 * x + 3 * y) = x := by
    revert x y
    decide
  rw [rhoPi, laneAt_buildLanes, hsource]

theorem laneAt_iota (rc : Lane) (a : LaneArray) (x y : Fin 5) :
    laneAt (iota rc a) x y = if x = 0 ∧ y = 0 then laneAt a x y ^^^ rc else laneAt a x y := by
  by_cases h : x = 0 ∧ y = 0
  · obtain ⟨rfl, rfl⟩ := h
    exact Vector.getElem_set_self _
  · have hpos : 0 ≠ x.val + 5 * y.val := by omega
    rw [if_neg h]
    exact Vector.getElem_set_ne _ _ hpos

end Sys2Proof.Permutation
end

section
/-!
PROOF. What follows the sponge port event by event (R105, R115): a claim about the port that each request the block issues
keeps, by the stage of R105's language it stands at, is kept by every step.
-/

namespace Sys2Proof.PortStage

open Sys2Proof.Machine Sys2Proof.Safety Sys2Proof.WholeDigest Sys2Proof.Registers Sys2Proof.Waiting
  Sys2Proof.Port

/-! ### Claims about the port by its stage -/

/-- `P o s` is a claim about the port in the state `s` whose registers say that it stands at stage `o` of R105's language
(`none`: they say no stage). It follows the port when each request the block issues carries it on to the stage that R105 has
after that request. -/
structure FollowsPort (P : Option Stage → State → Prop) : Prop where
  /-- where no stage is said, nothing but the events counts -/
  unsaid : ∀ {o s t}, P o s → t.trace = s.trace → P none t
  /-- the block's other registers are no matter of the port, but for `digest`, which takes its answers -/
  frame : ∀ {o s t}, P o s → t.trace = s.trace → t.collab = s.collab → t.digest = s.digest → P o t
  init : ∀ {o s}, P o s → P (some (.block 0)) (spInit true s)
  reinit : ∀ {st st' s}, P (some st) s → st.after (.init false) = some st' → P (some st') (spInit false s)
  absorbLane : ∀ {st st' s} (l : Lane), P (some st) s → st.after (.absorbLane l) = some st' →
    P (some st') (spAbsorbLane l s)
  advance : ∀ {st st' s}, P (some st) s → st.after .advance = some st' → P (some st') (spAdvance s)
  squeeze : ∀ {st s} (j : Fin 4), P (some st) s → st.after (.squeeze (squeezed s)) = some (.squeezing (j.val + 1)) →
    P (some (.squeezing (j.val + 1))) (squeezeInto j s)

/-- What a step's requests have carried to a stage holds of the state that the step leaves, when its registers say that stage. -/
theorem FollowsPort.reached {P : Option Stage → State → Prop} (hP : FollowsPort P) {st : Stage} {s t : State}
    (h : P (some st) s) (hst : expectedStage t = some st) (htrace : t.trace = s.trace) (hcollab : t.collab = s.collab)
    (hdigest : t.digest = s.digest) : P (expectedStage t) t := by
  rw [hst]
  exact hP.frame h htrace hcollab hdigest

theorem expectedStage_idle {s : State} (hp : s.phase = .active) (hq : s.seq = .idle) :
    expectedStage s = some (.block s.lanes.toNat) := by
  simp only [expectedStage, hp, hq]

/-- After a placement or a lane flush the port stands where `lanes` says. -/
theorem expectedStage_afterByte {s : State} (hp : s.phase = .active) (hq : s.seq = seqAfterByte s.fin) :
    expectedStage s = some (.block s.lanes.toNat) := by
  cases hfin : s.fin with
  | false => exact expectedStage_idle hp (by rw [hq, hfin]; rfl)
  | true =>
    have hpadz : s.seq = .padz := by rw [hq, hfin]; rfl
    simp only [expectedStage, hp, hpadz]

section
variable {P : Option Stage → State → Prop} (hP : FollowsPort P)
include hP

/-- A placement issues no request. -/
theorem place_follows (b : Byte) {s : State} (hp : s.phase = .active) (h : P (some (.block s.lanes.toNat)) s) :
    P (expectedStage (place b s)) (place b s) := by
  by_cases h7 : s.fill = 7
  · rw [place_full b s h7]
    exact hP.reached h (by simp only [expectedStage, hp]) rfl rfl rfl
  · rw [place_within b s h7]
    exact hP.reached h (expectedStage_afterByte hp rfl) rfl rfl rfl

/-- Accepting a command word issues INIT(1) or nothing. -/
theorem acceptCommand_follows (w : CommandWord) {s : State} (hq : s.seq = .idle) (h : P (expectedStage s) s) :
    P (expectedStage (acceptCommand w s)) (acceptCommand w s) := by
  obtain ⟨c, -, e⟩ | e | ⟨hp, e⟩ | ⟨hp, e⟩ := acceptCommand_cases w s <;> rw [e]
  · exact hP.frame h rfl rfl rfl
  · exact hP.reached (hP.init h) (expectedStage_idle (s := startDigest s) rfl hq) rfl rfl rfl
  · rw [expectedStage_idle hp hq] at h
    exact place_follows hP _ hp h
  · rw [expectedStage_idle hp hq] at h
    by_cases hlast : s.fill = 7 ∧ s.lanes = 16
    · rw [hlast.2] at h
      exact hP.reached h (by simp only [if_pos hlast, expectedStage, hp]; rfl) rfl rfl rfl
    · exact hP.reached h (by simp only [if_neg hlast, expectedStage, hp]) rfl rfl rfl

/-- EMIT sends the lane. -/
theorem emit_follows (p : Pins) {s : State} (hq : s.seq = .emit) (hp : s.phase = .active) (hl : s.lanes.toNat < 17)
    (h : P (some (.block s.lanes.toNat)) s) : P (expectedStage (microStep p s)) (microStep p s) := by
  have hsent := hP.absorbLane s.acc h (if_pos hl)
  simp only [microStep, hq]
  by_cases h16 : s.lanes = 16
  · rw [h16] at hsent
    rw [if_pos h16]
    exact hP.reached hsent (by simp only [expectedStage, spAbsorbLane_phase, hp]; rfl) rfl rfl rfl
  · rw [← lanes_succ _ (lanes_lt_of_ne hl h16)] at hsent
    rw [if_neg h16]
    exact hP.reached hsent (expectedStage_afterByte hp rfl) rfl rfl rfl

/-- Each micro-step issues the request that R105 allows where the port stands, or none. -/
theorem microStep_follows (p : Pins) {s : State} (hinv : BlockInv s) (h : P (expectedStage s) s) :
    P (expectedStage (microStep p s)) (microStep p s) := by
  by_cases hidle : s.seq = .idle
  · rw [microStep_idle p hidle]
    split
    · exact acceptCommand_follows hP p.cmd hidle h
    · exact h
  have hp : s.phase = .active := by
    by_contra hn
    exact hidle (seq_idle_of_blockInv hinv hn)
  obtain ⟨hl, -, hfit⟩ := hinv
  cases hq : s.seq <;> simp only [expectedStage, hp, hq] at h
  case idle => exact absurd hq hidle
  case emit => exact emit_follows hP p hq hp hl h
  case pad1 =>
    simp only [microStep, hq]
    exact place_follows hP _ hp h
  case padz =>
    simp only [microStep, hq]
    split
    next hlast =>
      rw [hlast.2] at h
      exact hP.reached h (by simp only [expectedStage, hp]; rfl) rfl rfl rfl
    next => exact place_follows hP _ hp h
  case init1 =>
    simp only [registersFit, hq] at hfit
    obtain ⟨-, -, -, -, hl0⟩ := hfit
    simp only [microStep, hq]
    exact hP.reached (hP.init h) (by simp only [expectedStage, spInit_phase, spInit_lanes, hp, hl0]; rfl) rfl rfl rfl
  all_goals simp only [microStep, hq]
  case reinit => exact hP.reached (hP.reinit h rfl) (expectedStage_afterByte hp rfl) rfl rfl rfl
  case adv0 | adv1 | adv2 | adv3 =>
    exact hP.reached (hP.advance h rfl) (by simp only [expectedStage, spAdvance_phase, hp]) rfl rfl rfl
  case last80 | last81 =>
    exact hP.reached (hP.absorbLane _ h rfl) (by simp only [expectedStage, spAbsorbLane_phase, hp]) rfl rfl rfl
  case sq0 => exact hP.reached (hP.squeeze 0 h rfl) (by simp only [expectedStage, squeezeInto_phase, hp]; rfl) rfl rfl rfl
  case sq1 => exact hP.reached (hP.squeeze 1 h rfl) (by simp only [expectedStage, squeezeInto_phase, hp]; rfl) rfl rfl rfl
  case sq2 => exact hP.reached (hP.squeeze 2 h rfl) (by simp only [expectedStage, squeezeInto_phase, hp]; rfl) rfl rfl rfl
  case sq3 => exact hP.reached (hP.squeeze 3 h rfl) rfl rfl rfl rfl

/-- A clock cycle issues one request or none; a reset, and a NEW that waits for its INIT(1), leave no stage said. -/
theorem clockCycle_follows (p : Pins) {s : State} (hinv : BlockInv s) (h : P (expectedStage s) s) :
    P (expectedStage (clockCycle p s)) (clockCycle p s) := by
  obtain ⟨-, e⟩ | ⟨-, -, -, -, e⟩ | ⟨-, -, -, -, -, e⟩ | ⟨-, -, e⟩ := clockCycle_cases p s <;> rw [e]
  · exact hP.unsaid h rfl
  · exact h
  · exact hP.unsaid h rfl
  · exact microStep_follows hP p hinv h

end

/-- No clock cycle takes an input. -/
theorem clockCycle_inputs (p : Pins) (s : State) : (clockCycle p s).inputs = s.inputs := by
  obtain ⟨-, e⟩ | ⟨-, -, -, -, e⟩ | ⟨-, -, -, -, -, e⟩ | ⟨-, -, e⟩ := clockCycle_cases p s <;> rw [e]
  · rfl
  · rfl
  · exact microStep_inputs p s

/-- What every clock cycle keeps, clock cycles one after the other keep. -/
theorem runCycles_keeps {I : State → Prop} (h : ∀ p s, I s → I (clockCycle p s)) (ps : List Pins) {s : State}
    (hs : I s) : I (runCycles ps s) := by
  induction ps generalizing s with
  | nil => exact hs
  | cons p ps ih => exact ih (h p s hs)

/-- A command that an idle block runs as a whole keeps what every clock cycle keeps: it is what its cycles leave (R92). -/
theorem exec_keeps {I : State → Prop} (h : ∀ p s, I s → I (clockCycle p s)) {w : CommandWord} {s t : State}
    (hinv : BlockInv s) (hq : s.seq = .idle) (hx : exec (decodeCommand w) s = .next t) (hs : I s) : I t := by
  obtain ⟨n, -, rfl⟩ := cyclesRefineCommands s t w hinv hq hx
  exact runCycles_keeps h _ hs

/-- The block's invariant, a claim that follows the port, and no requests but the block's own among the inputs. -/
def PortInv (P : Option Stage → State → Prop) (s : State) : Prop := BlockInv s ∧ P (expectedStage s) s ∧ portIsOurs s

section
variable {P : Option Stage → State → Prop} (hP : FollowsPort P)
include hP

theorem clockCycle_portInv (p : Pins) (s : State) (h : PortInv P s) : PortInv P (clockCycle p s) := by
  obtain ⟨hinv, hport, hours⟩ := h
  exact ⟨clockCycle_blockInv p hinv, clockCycle_follows hP p hinv hport, by rwa [portIsOurs, clockCycle_inputs]⟩

/-- An input taken leaves fewer of them. -/
theorem portInv_rest {i : Input} {rest : List Input} {s : State} (hi : s.inputs = i :: rest) (h : PortInv P s) :
    PortInv P { s with inputs := rest } := by
  obtain ⟨hinv, hport, hours⟩ := h
  refine ⟨blockInv_inputs rest hinv, hP.frame hport rfl rfl rfl, fun w hw => hours w ?_⟩
  rw [hi]
  exact List.mem_cons_of_mem i hw

theorem takeReset_portInv {s : State} (h : PortInv P s) : PortInv P (takeReset s) := by
  obtain ⟨-, hport, hours⟩ := h
  exact ⟨takeReset_blockInv s, hP.unsaid hport rfl, hours⟩

/-- Every step keeps a claim that follows the port, while no one else issues requests there. -/
theorem step_portInv {s t : State} (h : PortInv P s) (hstep : step s = .next t) : PortInv P t := by
  obtain ⟨-, rfl⟩ | ⟨w, rest, hi, hq, hx⟩ | ⟨w, rest, -, -, rfl⟩ | ⟨rest, hi, rfl⟩ | ⟨p, rest, hi, rfl⟩ |
    ⟨w, i, rest, hi, -, -⟩ := step_cases hstep
  · exact h
  · have htaken := portInv_rest hP hi h
    have ⟨hinv, _, _⟩ := htaken
    exact exec_keeps (s := { s with inputs := rest }) (clockCycle_portInv hP) hinv hq hx htaken
  · exact clockCycle_portInv hP _ s h
  · exact takeReset_portInv hP (portInv_rest hP hi h)
  · exact clockCycle_portInv hP p _ (portInv_rest hP hi h)
  · obtain ⟨-, -, hours⟩ := h
    exact absurd (hi ▸ List.mem_cons_self) (hours w)

end

/-! ### The call discipline (R105) -/

/-- The trace is made of R105's words and, where a stage is said, stands there. -/
def DisciplineAt (o : Option Stage) (s : State) : Prop :=
  ∃ st, stageOf s.trace = some st ∧ ∀ st', o = some st' → st = st'

theorem disciplineInv_iff (s : State) : DisciplineInv s ↔ DisciplineAt (expectedStage s) s := Iff.rfl

theorem disciplineAt_some {st : Stage} {s : State} : DisciplineAt (some st) s ↔ stageOf s.trace = some st := by
  simp [DisciplineAt]

/-- One more event moves the stage as R105 allows. -/
theorem stageOf_concat (trace : List Event) (e : Event) :
    stageOf (trace ++ [e]) = (stageOf trace).bind fun st => st.after e := by
  simp [stageOf, List.foldlM_append]

/-- An event that R105 allows keeps the discipline. -/
theorem disciplineAt_event {st st' : Stage} {e : Event} {s t : State} (h : DisciplineAt (some st) s)
    (he : st.after e = some st') (ht : t.trace = s.trace ++ [e]) : DisciplineAt (some st') t := by
  rw [disciplineAt_some] at h ⊢
  rw [ht, stageOf_concat, h, Option.bind_some, he]

theorem disciplineAt_followsPort : FollowsPort DisciplineAt where
  unsaid := by
    rintro o s t ⟨st, hst, -⟩ htrace
    exact ⟨st, htrace ▸ hst, fun _ h => nomatch h⟩
  frame := by
    rintro o s t ⟨st, hst, ho⟩ htrace - -
    exact ⟨st, htrace ▸ hst, ho⟩
  init := by
    rintro o s ⟨st, hst, -⟩
    exact disciplineAt_event (disciplineAt_some.2 hst) (by cases st <;> rfl) rfl
  reinit h he := disciplineAt_event h he rfl
  absorbLane _ h he := disciplineAt_event h he rfl
  advance h he := disciplineAt_event h he rfl
  squeeze _ h he := disciplineAt_event h he rfl

/-! ### The link to the reference collaborator (R115) -/

/-- Where the reference collaborator is at a stage of R105's language, with the lanes it has squeezed in `digest`. -/
def LinkedAt (st : Stage) (s : State) : Prop :=
  match st with
  | .start => False
  | .block n => Linked n 0 s
  | .advancing n => Linked 17 n s
  | .squeezing n => Linked 17 n s ∧ ∀ c, s.collab = .reference c → captured c s n

/-- Nothing is claimed of another collaborator, or where no stage is said. -/
def LinkAt (o : Option Stage) (s : State) : Prop := s.collab = .external ∨ ∀ st, o = some st → LinkedAt st s

theorem linked_reference {ai oi : Nat} {s : State} {c : Sponge} (hc : s.collab = .reference c) :
    Linked ai oi s ↔ c.ai = ai ∧ c.oi = oi ∧ stateFits s.trace c := by
  constructor
  · rintro ⟨S, hS, hfits⟩
    cases hc.symm.trans hS
    exact ⟨rfl, rfl, hfits⟩
  · rintro ⟨rfl, rfl, hfits⟩
    exact ⟨c.S, hc, hfits⟩

theorem not_linked_unknown {ai oi : Nat} {s : State} (hc : s.collab = .unknown) : ¬ Linked ai oi s := by
  rintro ⟨S, hS, -⟩
  cases hc.symm.trans hS

/-- Under the block's invariant the link of R115 is what the stage says of the collaborator. -/
theorem linkInv_iff {s : State} (hinv : BlockInv s) : LinkInv s ↔ LinkAt (expectedStage s) s := by
  have hidle : s.phase ≠ .active → s.seq = .idle := seq_idle_of_blockInv hinv
  cases hc : s.collab with
  | external => simp [LinkInv, LinkAt, hc]
  | unknown =>
    cases hp : s.phase with
    | empty => simp [LinkInv, LinkAt, expectedStage, hc, hp]
    | done => simp [LinkInv, LinkAt, LinkedAt, expectedStage, not_linked_unknown hc, hc, hp, hidle]
    | active =>
      cases hq : s.seq <;>
        simp [LinkInv, LinkAt, LinkedAt, expectedStage, not_linked_unknown hc, hc, hp, hq]
  | reference c =>
    cases hp : s.phase with
    | empty => simp [LinkInv, LinkAt, expectedStage, hc, hp]
    | done =>
      simp [LinkInv, LinkAt, LinkedAt, expectedStage, linked_reference hc, hc, hp, and_comm, and_left_comm]
    | active =>
      cases hq : s.seq <;>
        simp [LinkInv, LinkAt, LinkedAt, positionsFit, expectedStage, linked_reference hc, hc, hp, hq, and_assoc, and_comm,
          and_left_comm]

/-- The cycle of SQj adds lane j to those of the collaborator's state that `digest` holds. -/
theorem squeezeInto_captured {s : State} {S : LaneArray} (j : Fin 4)
    (hc : s.collab = .reference { S := S, ai := 17, oi := j })
    (h : captured { S := S, ai := 17, oi := j } s j) :
    captured { S := if j.val = 0 then keccakF S else S, ai := 17, oi := j + 1 } (squeezeInto j s) (j + 1) := by
  have hlane : squeezed s = (if j.val = 0 then keccakF S else S)[j.val] := by
    rw [squeezed, hc, collabOutput_reference _ S j.isLt]
  intro i hi
  rw [squeezeInto_digest, hlane]
  obtain hlt | rfl := Nat.lt_succ_iff_lt_or_eq.1 hi
  · have hne : (⟨i, hlt.trans j.isLt⟩ : Fin 4) ≠ j := Fin.ne_of_val_ne hlt.ne
    rw [quarter_setQuarter_ne hne, if_neg (by omega)]
    exact h i hlt
  · rw [quarter_setQuarter_same]
    exact Vector.getElem?_eq_getElem _

/-- An output step from stage to stage: where ADVANCE is allowed the collaborator permits it. -/
theorem linked_of_after_advance {st st' : Stage} {s : State} (h : LinkedAt st s) (he : st.after .advance = some st') :
    ∃ n < 4, Linked 17 n s ∧ st' = .advancing (n + 1) := by
  cases st with
  | start | squeezing n => cases he
  | block n =>
    obtain ⟨rfl, he⟩ := Option.ite_none_right_eq_some.1 he
    cases he
    exact ⟨0, by decide, h, rfl⟩
  | advancing n =>
    obtain ⟨hn, he⟩ := Option.ite_none_right_eq_some.1 he
    cases he
    exact ⟨n, hn, h, rfl⟩

/-- Where the `j`-th SQUEEZE is allowed the collaborator permits it, with the lanes before it in `digest`. -/
theorem linked_of_after_squeeze {st : Stage} {s : State} {z : Lane} {j : Nat} (h : LinkedAt st s)
    (he : st.after (.squeeze z) = some (.squeezing (j + 1))) :
    Linked 17 j s ∧ ∀ c, s.collab = .reference c → captured c s j := by
  cases st with
  | start | advancing n => cases he
  | block n =>
    obtain ⟨rfl, he⟩ := Option.ite_none_right_eq_some.1 he
    cases he
    exact ⟨h, fun _ _ _ hi => absurd hi (Nat.not_lt_zero _)⟩
  | squeezing n =>
    obtain ⟨-, he⟩ := Option.ite_none_right_eq_some.1 he
    cases he
    exact h

theorem squeezeInto_linkedAt {s : State} (j : Fin 4) (h : Linked 17 j s)
    (hcap : ∀ c, s.collab = .reference c → captured c s j) : LinkedAt (.squeezing (j + 1)) (squeezeInto j s) := by
  obtain ⟨S, hc, hfits⟩ := h
  have hc' : (squeezeInto j s).collab =
      .reference { S := if j.val = 0 then keccakF S else S, ai := 17, oi := j + 1 } := by
    rw [squeezeInto_collab, hc, collabOutput_reference _ S j.isLt]
  refine ⟨⟨_, hc', ?_⟩, fun c' hc'' => ?_⟩
  · exact stateFits_output hfits _ (lanesReceived_squeeze _ _) ⟨rfl, j.isLt⟩
  · cases hc'.symm.trans hc''
    exact squeezeInto_captured j hc (hcap _ hc)

/-- A request to another collaborator leaves it another one, and one that keeps the link moves it to the next stage. -/
theorem linkAt_of_linkedAt {st st' : Stage} {s t : State} (h : LinkAt (some st) s)
    (hext : s.collab = .external → t.collab = .external) (hlink : LinkedAt st s → LinkedAt st' t) :
    LinkAt (some st') t := by
  obtain hc | hst := h
  · exact .inl (hext hc)
  · refine .inr fun st'' h'' => ?_
    cases h''
    exact hlink (hst st rfl)

theorem linkAt_followsPort : FollowsPort LinkAt where
  unsaid _ _ := .inr fun _ h => nomatch h
  frame := by
    rintro o s t h htrace hcollab hdigest
    rw [LinkAt, hcollab]
    refine h.imp_right fun h st hst => ?_
    have hst := h st hst
    cases st with
    | start => exact hst
    | block n | advancing n | squeezing n =>
      simpa only [LinkedAt, Linked, captured, htrace, hcollab, hdigest] using hst
  init := by
    rintro o s -
    by_cases hc : s.collab = .external
    · exact .inl (by rw [spInit_collab, hc, collabInit_external])
    · refine .inr fun st h => ?_
      cases h
      exact spInit_fresh_linked hc
  reinit := by
    intro st st' s h he
    refine linkAt_of_linkedAt h (fun hc => by rw [spInit_collab, hc, collabInit_external]) fun h => ?_
    cases st with
    | start | block n | squeezing n => cases he
    | advancing n =>
      obtain ⟨rfl, he⟩ := Option.ite_none_right_eq_some.1 he
      cases he
      exact spInit_again_linked h (by decide)
  absorbLane := by
    intro st st' s l h he
    refine linkAt_of_linkedAt h (fun hc => by rw [spAbsorbLane_collab, hc, collabAbsorb_external]) fun h => ?_
    cases st with
    | start | advancing n | squeezing n => cases he
    | block n =>
      obtain ⟨hn, he⟩ := Option.ite_none_right_eq_some.1 he
      cases he
      exact spAbsorbLane_linked h l hn
  advance := by
    intro st st' s h he
    refine linkAt_of_linkedAt h (fun hc => by rw [spAdvance_collab, hc, collabOutput_external]) fun h => ?_
    obtain ⟨n, hn, hlink, rfl⟩ := linked_of_after_advance h he
    exact spAdvance_linked hlink hn
  squeeze := by
    intro st s j h he
    refine linkAt_of_linkedAt h (fun hc => by rw [squeezeInto_collab, hc, collabOutput_external]) fun h => ?_
    obtain ⟨hlink, hcap⟩ := linked_of_after_squeeze h he
    exact squeezeInto_linkedAt j hlink hcap

end Sys2Proof.PortStage
end

section
/-!
PROOF. Another collaborator behind the port (R107): the block does the same with it, so two runs differ at the port only, until
FINALIZE writes the lanes returned to `digest`.
-/

namespace Sys2Proof.OtherCollaborator

open Sys2Proof.Machine Sys2Proof.Safety Sys2Proof.Registers Sys2Proof.Commands

/-- Two states that differ at the port only: in the collaborator, and in the lanes it has returned. -/
def DifferAtPort (s s' : State) : Prop :=
  ∃ trace c, s' = { s with trace := trace, collab := c } ∧ trace.map eraseAnswer = s.trace.map eraseAnswer

theorem DifferAtPort.issue {s s' : State} (h : DifferAtPort s s') {e e' : Event} (he : eraseAnswer e' = eraseAnswer e)
    (c c' : Collaborator) : DifferAtPort (issue e c s) (issue e' c' s') := by
  obtain ⟨trace, -, rfl, htrace⟩ := h
  exact ⟨trace ++ [e'], c', rfl, by rw [issue_trace, List.map_append, List.map_append, htrace, List.map_singleton, he,
    List.map_singleton]⟩

theorem DifferAtPort.data {s s' : State} (h : DifferAtPort s s') (acc : Lane) (fill : BitVec 3) (lanes : BitVec 5) :
    DifferAtPort { s with acc := acc, fill := fill, lanes := lanes }
      { s' with acc := acc, fill := fill, lanes := lanes } := by
  obtain ⟨trace, c, rfl, htrace⟩ := h
  exact ⟨trace, c, rfl, htrace⟩

theorem DifferAtPort.errorEntry {s s' : State} (h : DifferAtPort s s') (c : ErrCause) :
    DifferAtPort (errorEntry c s) (errorEntry c s') := by
  obtain ⟨trace, c, rfl, htrace⟩ := h
  exact ⟨trace, c, rfl, htrace⟩

theorem DifferAtPort.startDigest {s s' : State} (h : DifferAtPort s s') :
    DifferAtPort (startDigest s) (startDigest s') := by
  have hopen : DifferAtPort (openDigest s) (openDigest s') := by
    obtain ⟨trace, c, rfl, htrace⟩ := h
    exact ⟨trace, c, rfl, htrace⟩
  exact hopen.issue rfl _ _

theorem DifferAtPort.phase {s s' : State} (h : DifferAtPort s s') : s'.phase = s.phase := by
  obtain ⟨trace, c, rfl, -⟩ := h
  rfl

/-- The data registers are the same. -/
theorem DifferAtPort.position {s s' : State} (h : DifferAtPort s s') :
    s'.acc = s.acc ∧ s'.fill = s.fill ∧ s'.lanes = s.lanes := by
  obtain ⟨trace, c, rfl, -⟩ := h
  exact ⟨rfl, rfl, rfl⟩

theorem DifferAtPort.absorbLane {s s' : State} (h : DifferAtPort s s') (l : Lane) :
    DifferAtPort (spAbsorbLane l s) (spAbsorbLane l s') := h.issue rfl _ _

theorem DifferAtPort.squeeze {s s' : State} (h : DifferAtPort s s') :
    DifferAtPort (spSqueeze s) (spSqueeze s') :=
  h.issue (e := .squeeze (squeezed s)) (e' := .squeeze (squeezed s')) rfl _ _

theorem DifferAtPort.blockTransition {s s' : State} (h : DifferAtPort s s') :
    DifferAtPort (blockTransition s) (blockTransition s') := by
  have hadvance {u u' : State} (hu : DifferAtPort u u') : DifferAtPort (spAdvance u) (spAdvance u') := hu.issue rfl _ _
  exact (hadvance (hadvance (hadvance (hadvance h)))).issue rfl _ _

/-- The byte path does the same to both, and sends the same lane. -/
theorem DifferAtPort.injectByte {s s' : State} (h : DifferAtPort s s') (b : Byte) :
    DifferAtPort (injectByte b s) (injectByte b s') := by
  obtain ⟨hacc, hfill, hlanes⟩ := h.position
  by_cases h7 : s.fill = 7
  · have hsent := h.absorbLane (placeByte s.acc 7 b)
    by_cases h16 : s.lanes = 16
    · rw [injectByte_block b s h7 h16, injectByte_block b s' (hfill.trans h7) (hlanes.trans h16), hacc]
      exact hsent.blockTransition.data 0 0 0
    · rw [injectByte_lane b s h7 h16, injectByte_lane b s' (hfill.trans h7) (hlanes ▸ h16), hacc, hlanes]
      exact hsent.data 0 0 _
  · rw [injectByte_place b s h7, injectByte_place b s' (hfill ▸ h7), hacc, hfill]
    obtain ⟨trace, c, rfl, htrace⟩ := h
    exact ⟨trace, c, rfl, htrace⟩

theorem DifferAtPort.injectZeros (n : Nat) {s s' : State} (h : DifferAtPort s s') :
    DifferAtPort (injectZeros n s) (injectZeros n s') := by
  induction n generalizing s s' with
  | zero => exact h
  | succ n ih => exact ih (h.injectByte 0x00)

/-- FINALIZE's padding sends the same lanes. -/
theorem DifferAtPort.padBlock {s s' : State} (h : DifferAtPort s s') : DifferAtPort (padBlock s) (padBlock s') := by
  obtain ⟨hacc, hfill, hlanes⟩ := h.position
  by_cases hone : bytesToPad s.fill s.lanes = 1
  · simp only [Machine.padBlock, hfill, hlanes, hacc, if_pos hone]
    exact h.absorbLane _
  · have hpad : DifferAtPort (padBytes s) (padBytes s') := by
      rw [padBytes, padBytes, hfill, hlanes]
      exact (h.injectByte _).injectZeros _
    obtain ⟨hacc', -, -⟩ := hpad.position
    rw [padBlock_general hone, padBlock_general (by rwa [hfill, hlanes]), hacc']
    exact hpad.absorbLane _

/-- Two states that differ in the collaborator and in the lanes it has returned, those in `digest` among them. -/
def DifferInAnswers (s s' : State) : Prop :=
  s' = { s with digest := s'.digest, trace := s'.trace, collab := s'.collab } ∧
    s'.trace.map eraseAnswer = s.trace.map eraseAnswer

theorem DifferAtPort.inAnswers {s s' : State} (h : DifferAtPort s s') :
    DifferInAnswers s s' ∧ s'.digest = s.digest := by
  obtain ⟨trace, c, rfl, htrace⟩ := h
  exact ⟨⟨rfl, htrace⟩, rfl⟩

/-- The four SQUEEZE may return other lanes, which go to `digest`. -/
theorem DifferAtPort.squeezeDigest {s s' : State} (h : DifferAtPort s s') :
    DifferInAnswers (squeezeDigest s) (squeezeDigest s') := by
  obtain ⟨⟨hregisters, htrace⟩, -⟩ := h.squeeze.squeeze.squeeze.squeeze.inAnswers
  refine ⟨?_, htrace⟩
  simp only [Machine.squeezeDigest]
  rw [hregisters]
  rfl

/-- An instruction that writes no digest does the same to both. -/
theorem exec_differAtPort {i : Instr} {s s' t : State} (hi : s.phase = .active → ∀ d, i ≠ .finalize d)
    (h : DifferAtPort s s') (hx : exec i s = .next t) : ∃ t', exec i s' = .next t' ∧ DifferAtPort t t' := by
  have hphase := h.phase
  cases i with
  | reserved d => cases hx; exact ⟨_, rfl, h.errorEntry _⟩
  | new d => cases hx; exact ⟨_, rfl, h.startDigest⟩
  | absorb b =>
    by_cases hp : s.phase = .active
    · cases (exec_absorb_active hp).symm.trans hx
      exact ⟨_, exec_absorb_active (hphase.trans hp), h.injectByte b⟩
    · cases (exec_absorb_inactive hp).symm.trans hx
      exact ⟨_, exec_absorb_inactive (hphase ▸ hp), h.errorEntry _⟩
  | finalize d =>
    have hp : s.phase ≠ .active := fun hp => hi hp d rfl
    cases (exec_finalize_inactive hp).symm.trans hx
    exact ⟨_, exec_finalize_inactive (hphase ▸ hp), h.errorEntry _⟩
  | init f => cases hx; exact ⟨_, rfl, h.issue rfl _ _⟩
  | absorbLane l => cases hx; exact ⟨_, rfl, h.absorbLane l⟩
  | advance => cases hx; exact ⟨_, rfl, h.issue rfl _ _⟩
  | squeeze => cases hx; exact ⟨_, rfl, h.squeeze⟩

end Sys2Proof.OtherCollaborator
end

section
/-! PROOF. The obligations of the sponge port family (spec/41_sponge_port.md). -/

open Sys2Proof Sys2Proof.Machine Sys2Proof.Safety Sys2Proof.Registers Sys2Proof.Commands Sys2Proof.Port
  Sys2Proof.Permutation Sys2Proof.PortStage Sys2Proof.OtherCollaborator

/-- Settles O44: under the block's invariant the link is a claim about the port at its stage, which each request keeps. -/
theorem stepKeepsLink : Obligations.StepKeepsLink := by
  unfold Obligations.StepKeepsLink
  intro s t hinv hlink hours hstep
  obtain ⟨hinv', hlink', hours'⟩ :=
    step_portInv linkAt_followsPort ⟨hinv, (linkInv_iff hinv).1 hlink, hours⟩ hstep
  exact ⟨(linkInv_iff hinv').2 hlink', hours'⟩

/-- Settles O45: the discipline is a claim about the port at its stage, which each request that R105 allows keeps. -/
theorem stepKeepsDiscipline : Obligations.StepKeepsDiscipline := by
  unfold Obligations.StepKeepsDiscipline
  intro s t hinv hdiscipline hours hstep
  obtain ⟨-, hdiscipline', hours'⟩ :=
    step_portInv disciplineAt_followsPort ⟨hinv, (disciplineInv_iff s).1 hdiscipline, hours⟩ hstep
  exact ⟨(disciplineInv_iff t).2 hdiscipline', hours'⟩

/-- Settles O13: ABSORB is the byte path, whose 17th lane is permitted at `ai = 16` and followed by the block transition. -/
theorem blockFlushPermutesReference : Obligations.BlockFlushPermutesReference := by
  unfold Obligations.BlockFlushPermutesReference
  intro b s c hp h7 h16 hc hai hoi
  obtain ⟨S, ai, oi⟩ := c
  subst hai hoi
  refine ⟨_, exec_absorb_active hp, ?_⟩
  rw [injectByte_block b s h7 h16, placeByte_top]
  exact blockTransition_reference (by rw [spAbsorbLane_reference _ (by decide) hc, issue_collab])

/-- Settles O21: permitted, the request xors its lane into lane `ai` and into no other. -/
theorem referenceAbsorbLane : Obligations.ReferenceAbsorbLane := by
  unfold Obligations.ReferenceAbsorbLane
  intro l s c hc hai hoi
  obtain ⟨S, ai, oi⟩ := c
  subst hoi
  refine ⟨S.set ai (S[ai] ^^^ l), congrArg _ (spAbsorbLane_reference l hai hc), fun i => ?_⟩
  by_cases h : i.val = ai
  · subst h
    simp
  · simp [h, Ne.symm h]

/-- Settles O22: permitted, both requests are the collaborator's output step; only SQUEEZE's event carries its lane. -/
theorem referenceOutputStep : Obligations.ReferenceOutputStep := by
  unfold Obligations.ReferenceOutputStep
  intro s c K z hc hai hoi hK hz
  obtain ⟨S, ai, oi⟩ := c
  subst hai hK
  obtain ⟨-, rfl⟩ := Vector.getElem?_eq_some_iff.1 hz
  exact ⟨congrArg _ (spAdvance_reference hoi hc), congrArg _ (spSqueeze_reference hoi hc)⟩

/-- Settles O23: the five requests are the block transition, whose events and collaborator are known. -/
theorem fourAdvancesPermuteOnce : Obligations.FourAdvancesPermuteOnce := by
  unfold Obligations.FourAdvancesPermuteOnce
  intro s c hc hai hoi
  obtain ⟨S, ai, oi⟩ := c
  subst hai hoi
  have hrun : runCommands [.advance, .advance, .advance, .advance, .init false] s = .next (blockTransition s) := rfl
  rw [hrun, Commands.blockTransition_eq, blockTransition_trace, blockTransition_reference hc]

/-- Settles O24: the first of the four output steps permutes the state, and each returns the next lane of it. -/
theorem fourSqueezesReturnTheLanes : Obligations.FourSqueezesReturnTheLanes := by
  unfold Obligations.FourSqueezesReturnTheLanes
  intro s c K hc hai hoi hK
  obtain ⟨S, ai, oi⟩ := c
  subst hai hoi hK
  exact congrArg Host.Outcome.next (spSqueeze_four_reference hc)

/-- Settles O27: with another collaborator the block does the same and the states differ at the port only, until the four
SQUEEZE of a FINALIZE return other lanes. -/
theorem collaboratorReachesDigestOnly : Obligations.CollaboratorReachesDigestOnly := by
  unfold Obligations.CollaboratorReachesDigestOnly
  intro i s t c hx
  have hother : DifferAtPort s { s with collab := c } := ⟨s.trace, c, rfl, rfl⟩
  by_cases hfinalize : s.phase = .active ∧ ∃ d, i = .finalize d
  · obtain ⟨hp, d, rfl⟩ := hfinalize
    cases (exec_finalize_active hp).symm.trans hx
    obtain ⟨hregisters, htrace⟩ := hother.padBlock.squeezeDigest
    exact ⟨_, exec_finalize_active hp, hregisters, htrace, fun hn => absurd rfl (hn d)⟩
  · have hi : s.phase = .active → ∀ d, i ≠ .finalize d := fun hp d hd => hfinalize ⟨hp, d, hd⟩
    obtain ⟨t', hx', hsame⟩ := exec_differAtPort hi hother hx
    obtain ⟨⟨hregisters, htrace⟩, hdigest⟩ := hsame.inAnswers
    exact ⟨t', hx', hregisters, htrace, fun _ => hdigest⟩

/-- Settles O41: the lanes that each step mapping builds, read at their positions; a round is the four of them in order. -/
theorem roundFollowsFormulas : Obligations.RoundFollowsFormulas := by
  unfold Obligations.RoundFollowsFormulas
  intro a rc x y
  exact ⟨rfl, laneAt_theta a x y, laneAt_rhoPi a x y, laneAt_buildLanes _ x y, laneAt_iota rc a x y, rfl, rfl⟩

/-- Settles O20: INIT is permitted in every state of the reference collaborator. -/
theorem referenceInit : Obligations.ReferenceInit := by
  unfold Obligations.ReferenceInit
  intro f s c hc
  rw [exec_init, hc, collabInit_reference]
  rfl

/-- Settles O26: the two kinds differ at INIT only; every other request leaves both as they were. -/
theorem unknownAnswersAreFree : Obligations.UnknownAnswersAreFree := by
  unfold Obligations.UnknownAnswersAreFree
  intro s h
  refine ⟨fun f => ?_, fun l => ?_, ?_, ?_⟩
  · obtain hc | hc := h <;> rw [exec_init, hc] <;> rfl
  · rw [exec_absorbLane, collabAbsorb_free l h, issue_same]
  · rw [exec_advance, collabOutput_free _ h, issue_same]
  · rw [exec_squeeze, collabOutput_free _ h, issue_same]

/-- Settles O57: the tables are closed data, compared entry by entry; the recurrence is evaluated at its 160 outputs. -/
theorem keccakTables : Obligations.KeccakTables := by
  unfold Obligations.KeccakTables
  refine ⟨by decide, rfl, by decide, by decide, by decide +kernel⟩

end

section
/-!
PROOF. The error registers reach nothing but themselves (R125): every operation of the commands commutes with a change of `err`
and `err_cause`, but for error entry, which writes these two only. And the step of a machine with nothing presented (R131).
-/

namespace Sys2Proof.Exceptions

open Sys2Proof.Machine Sys2Proof.Registers Sys2Proof.Commands

/-- `s` with other values in the error registers. -/
def withError (e : Bool) (c : ErrCause) (s : State) : State := { s with err := e, errCause := c }

/-! ### The operations commute with it -/

/-- Error entry alone reads `err` and `err_cause`, and writes nothing else (R124). -/
theorem errorEntry_withError (e : Bool) (c cause : ErrCause) (s : State) :
    errorEntry cause (withError e c s) = withError true (firstCause e c cause) (errorEntry cause s) := rfl

theorem injectByte_withError (b : Byte) (e : Bool) (c : ErrCause) (s : State) :
    injectByte b (withError e c s) = withError e c (injectByte b s) := by
  by_cases h7 : s.fill = 7
  · by_cases h16 : s.lanes = 16
    · rw [injectByte_block b s h7 h16, injectByte_block b (withError e c s) h7 h16]
      rfl
    · rw [injectByte_lane b s h7 h16, injectByte_lane b (withError e c s) h7 h16]
      rfl
  · rw [injectByte_place b s h7, injectByte_place b (withError e c s) h7]
    rfl

theorem injectZeros_withError (n : Nat) (e : Bool) (c : ErrCause) (s : State) :
    injectZeros n (withError e c s) = withError e c (injectZeros n s) := by
  induction n generalizing s with
  | zero => rfl
  | succ n ih => rw [injectZeros_succ, injectByte_withError, ih, injectZeros_succ]

theorem padBytes_withError (e : Bool) (c : ErrCause) (s : State) :
    padBytes (withError e c s) = withError e c (padBytes s) := by
  rw [padBytes, injectByte_withError, injectZeros_withError]
  rfl

theorem padBlock_oneByte {s : State} (h : bytesToPad s.fill s.lanes = 1) :
    padBlock s = spAbsorbLane (s.acc + markerTop Config.padBoth) s := if_pos h

theorem padBlock_withError (e : Bool) (c : ErrCause) (s : State) :
    padBlock (withError e c s) = withError e c (padBlock s) := by
  by_cases hone : bytesToPad s.fill s.lanes = 1
  · rw [padBlock_oneByte hone, padBlock_oneByte (s := withError e c s) hone]
    rfl
  · rw [padBlock_general hone, padBlock_general (s := withError e c s) hone, padBytes_withError]
    rfl

/-- The lanes that the four SQUEEZE return depend on the port alone (log 2). -/
theorem squeezeDigest_withError (e : Bool) (c : ErrCause) (s : State) :
    squeezeDigest (withError e c s) = withError e c (squeezeDigest s) := rfl

/-! ### So does every instruction -/

theorem exec_withError {i : Instr} {s t : State} (e : Bool) (c : ErrCause) (hx : exec i s = .next t) :
    ∃ e' c', exec i (withError e c s) = .next (withError e' c' t) := by
  have hphase : (withError e c s).phase = s.phase := rfl
  cases i with
  | reserved d => cases hx; exact ⟨true, firstCause e c .illegalOp, rfl⟩
  | absorb b =>
    by_cases hp : s.phase = .active
    · cases (exec_absorb_active hp).symm.trans hx
      exact ⟨e, c, by rw [exec_absorb_active (hphase.trans hp), injectByte_withError]⟩
    · cases (exec_absorb_inactive hp).symm.trans hx
      exact ⟨true, firstCause e c .absorbNotActive, by rw [exec_absorb_inactive (hphase ▸ hp), errorEntry_withError]⟩
  | finalize d =>
    by_cases hp : s.phase = .active
    · cases (exec_finalize_active hp).symm.trans hx
      exact ⟨e, c, by rw [exec_finalize_active (hphase.trans hp), padBlock_withError, squeezeDigest_withError]⟩
    · cases (exec_finalize_inactive hp).symm.trans hx
      exact ⟨true, firstCause e c .finalizeNotActive, by rw [exec_finalize_inactive (hphase ▸ hp), errorEntry_withError]⟩
  | new | init | absorbLane | advance | squeeze => cases hx; exact ⟨e, c, rfl⟩

/-! ### The step with nothing presented (R131) -/

theorem step_nothing {s : State} (hi : s.inputs = []) : step s = .next s := by
  simp only [step, fetch, hi]

end Sys2Proof.Exceptions
end

section
/-! PROOF. The obligations of the exceptions family (spec/60_exceptions.md). -/

open Sys2Proof Sys2Proof.Machine Sys2Proof.Registers Sys2Proof.Waiting Sys2Proof.Exceptions

/-- Settles O29: every instruction commutes with a change of the error registers, but for what error entry writes there. -/
theorem errorsDoNotInterfere : Obligations.ErrorsDoNotInterfere := by
  unfold Obligations.ErrorsDoNotInterfere
  intro i s t e c hx
  obtain ⟨e', c', hx'⟩ := exec_withError e c hx
  exact ⟨withError e' c' t, hx', rfl⟩

/-- Settles O8: one lemma per input; a waiting command's cycle is the sequencer's quiet step, the collaborator being ready. -/
theorem stepTakesOtherInputs : Obligations.StepTakesOtherInputs := by
  unfold Obligations.StepTakesOtherInputs
  intro s
  refine ⟨step_nothing, fun w rest hi hq => ?_, fun p rest hi => step_clock hi⟩
  rw [clockCycle_ready quietPins s rfl rfl]
  exact step_command_busy hi hq

/-- Settles O11: the reserved opcode's meaning is error entry, in every phase. -/
theorem reservedRaisesIllegalOp : Obligations.ReservedRaisesIllegalOp := by
  unfold Obligations.ReservedRaisesIllegalOp
  intro d s
  exact show exec (.reserved d) s = .next (errorEntry .illegalOp s) from rfl

end

section
/-!
PROOF. What only a reset undoes (R140, R142): without one, clock cycles add events to the trace and never take the block back to
EMPTY, and no instruction does that either. And a reset request taken, at either grain, is `takeReset`.
-/

namespace Sys2Proof.Reset

open Sys2Proof.Machine Sys2Proof.Safety Sys2Proof.Registers Sys2Proof.Sequencer

/-! ### Cycles without a reset -/

/-- From `s` to `t` the events carried stay carried, and EMPTY is not reached from another phase. -/
structure Progress (s t : State) : Prop where
  events : s.trace <+: t.trace
  lifecycle : t.phase = .empty → s.phase = .empty

theorem Progress.refl (s : State) : Progress s s := ⟨List.prefix_rfl, id⟩

theorem Progress.trans {s t u : State} (h : Progress s t) (h' : Progress t u) : Progress s u :=
  ⟨h.events.trans h'.events, h.lifecycle ∘ h'.lifecycle⟩

theorem place_progress (b : Byte) (s : State) : Progress s (place b s) := by
  by_cases h7 : s.fill = 7
  · rw [place_full b s h7]; exact ⟨List.prefix_rfl, id⟩
  · rw [place_within b s h7]; exact ⟨List.prefix_rfl, id⟩

theorem acceptCommand_progress (w : CommandWord) (s : State) : Progress s (acceptCommand w s) := by
  obtain ⟨c, -, e⟩ | e | ⟨-, e⟩ | ⟨-, e⟩ := acceptCommand_cases w s <;> rw [e]
  · exact ⟨List.prefix_rfl, id⟩
  · exact ⟨List.prefix_append .., nofun⟩
  · exact place_progress _ s
  · exact ⟨List.prefix_rfl, id⟩

theorem microStep_progress (p : Pins) (s : State) : Progress s (microStep p s) := by
  cases hq : s.seq with
  | idle =>
    rw [microStep_idle p hq]
    split
    · exact acceptCommand_progress p.cmd s
    · exact .refl s
  | emit =>
    simp only [microStep, hq]
    split <;> exact ⟨List.prefix_append .., id⟩
  | pad1 =>
    simp only [microStep, hq]
    exact place_progress _ s
  | padz =>
    simp only [microStep, hq]
    split
    · exact ⟨List.prefix_rfl, id⟩
    · exact place_progress _ s
  | sq3 =>
    simp only [microStep, hq]
    exact ⟨List.prefix_append .., nofun⟩
  | adv0 | adv1 | adv2 | adv3 | reinit | last80 | last81 | sq0 | sq1 | sq2 | init1 =>
    simp only [microStep, hq]
    exact ⟨List.prefix_append .., id⟩

theorem clockCycle_progress {p : Pins} (hr : p.rst = false) (s : State) : Progress s (clockCycle p s) := by
  obtain ⟨h, -⟩ | ⟨-, -, -, -, e⟩ | ⟨-, -, -, -, -, e⟩ | ⟨-, -, e⟩ := clockCycle_cases p s
  · simp [hr] at h
  · rw [e]; exact .refl s
  · rw [e]; exact ⟨List.prefix_rfl, nofun⟩
  · rw [e]; exact microStep_progress p s

theorem quietStep_iterate_progress (n : Nat) (s : State) : Progress s (quietStep^[n] s) := by
  induction n generalizing s with
  | zero => exact .refl s
  | succ n ih => exact (microStep_progress quietPins s).trans (ih (quietStep s))

/-! ### Every step without a reset (R93) -/

/-- No instruction run as a whole reaches EMPTY. -/
theorem exec_phase_empty {i : Instr} {s t : State} (hx : exec i s = .next t) (ht : t.phase = .empty) :
    s.phase = .empty := by
  obtain ⟨c, -, rfl⟩ | rfl | ⟨b, -, rfl⟩ | ⟨-, rfl⟩ | ⟨e, c, rfl⟩ := exec_cases hx
  · exact ht
  · cases ht
  · obtain ⟨hphase, -⟩ := injectByte_frame b s
    exact hphase.symm.trans ht
  · cases ht
  · exact ht

/-- Nor does any other step in which no reset request is taken. -/
theorem step_phase_empty {s t : State} (hstep : step s = .next t) (hr : ¬ resetRequested s) (ht : t.phase = .empty) :
    s.phase = .empty := by
  obtain ⟨-, rfl⟩ | ⟨w, rest, -, -, hx⟩ | ⟨w, rest, -, -, rfl⟩ | ⟨rest, hi, -⟩ | ⟨p, rest, hi, rfl⟩ |
    ⟨w, i, rest, -, -, hx⟩ := step_cases hstep
  · exact ht
  · exact exec_phase_empty (s := { s with inputs := rest }) hx ht
  · exact (clockCycle_progress rfl s).lifecycle ht
  · simp [resetRequested, hi] at hr
  · have hp : p.rst = false := by simpa [resetRequested, hi] using hr
    exact (clockCycle_progress hp { s with inputs := rest }).lifecycle ht
  · exact exec_phase_empty (s := { s with inputs := rest }) hx ht

/-! ### A reset request taken (R126, R140) -/

theorem clockCycle_reset {q : Pins} (hr : q.rst = true) (s : State) : clockCycle q s = takeReset s := if_pos hr

theorem step_reset {s : State} {rest : List Input} (hi : s.inputs = .reset :: rest) :
    step s = .next (takeReset { s with inputs := rest }) := by
  simp only [step, fetch, hi]

/-- Cycles that a reset ends are those cycles, and then the reset. -/
theorem runCycles_reset (ps : List Pins) {q : Pins} (hr : q.rst = true) (s : State) :
    runCycles (ps ++ [q]) s = takeReset (runCycles ps s) := by
  rw [runCycles, List.foldl_append]
  exact clockCycle_reset hr _

/-- A command under way stands between its start and what it leaves as a whole: the cycles still to come only add events. -/
theorem command_continues {p : Pins} {ps : List Pins} {s t : State} (hinv : BlockInv s) (hq : s.seq = .idle)
    (hr : p.rst = false) (hv : p.cmdValid = true) (hx : exec (decodeCommand p.cmd) s = .next t)
    (hps : ∀ p' ∈ ps, p'.rst = false ∧ p'.cmdValid = false) :
    Progress s (runCycles (p :: ps) s) ∧ Progress (runCycles (p :: ps) s) t := by
  obtain ⟨n, -, hdone⟩ := command_completes hinv hq hr hv hx
  obtain ⟨k, -, hrun⟩ := runCycles_quiet ps hps (clockCycle p s)
  have hrest : quietStep^[n] (quietStep^[k] (clockCycle p s)) = t := by
    rw [← Function.iterate_add_apply]
    exact quietStep_iterate_of_le hdone ((exec_seq hx).trans hq) (Nat.le_add_right n k)
  rw [runCycles_cons, hrun]
  exact ⟨(clockCycle_progress hr s).trans (quietStep_iterate_progress k _), hrest ▸ quietStep_iterate_progress n _⟩

end Sys2Proof.Reset
end

section
/-! PROOF. The obligations of the reset and hazards family (spec/70_reset_and_hazards.md). -/

open Sys2Proof Sys2Proof.Machine Sys2Proof.Safety Sys2Proof.Registers Sys2Proof.Sequencer Sys2Proof.Reset

/-- Settles O30: no clock cycle and no instruction reaches EMPTY, and error entry is all that they do to `err`. -/
theorem onlyResetReachesEmpty : Obligations.OnlyResetReachesEmpty := by
  unfold Obligations.OnlyResetReachesEmpty
  intro s t hstep hr
  refine ⟨step_phase_empty hstep hr, fun ht => Bool.eq_false_of_not_eq_true fun hs => ?_⟩
  obtain ⟨herr, -⟩ := (step_errorStep hstep hr).sticky hs
  simp [herr] at ht

/-- Settles O47: each cycle of the command only adds events, before the cut and in the cycles that would have completed it. -/
theorem resetCutsCommandBetweenEvents : Obligations.ResetCutsCommandBetweenEvents := by
  unfold Obligations.ResetCutsCommandBetweenEvents
  intro s t r w p q ps hinv hq hx hr hv hw hps hreset hrun
  subst hw
  obtain ⟨hbefore, hafter⟩ := command_continues hinv hq hr hv hx hps
  rw [← List.cons_append, runCycles_reset _ hreset] at hrun
  subst hrun
  exact ⟨hbefore.events, hafter.events, rfl, rfl, rfl, rfl, rfl, rfl, rfl, rfl, rfl⟩

/-- Settles O32: at either grain the request taken is `takeReset`, and `rst` holds `cmd_ready` and `sp_valid` at 0. -/
theorem resetTakesEffect : Obligations.ResetTakesEffect := by
  unfold Obligations.ResetTakesEffect
  intro s r rest hr
  subst hr
  refine ⟨step_reset, fun p hi hp => ⟨?_, by simp [cmdReady, hp], ?_⟩⟩
  · rw [step_clock hi, clockCycle_reset hp]
    rfl
  · simp [spValid, pendingRequest, hp]

end
